-- ==== Sys2Proof/Word.lean ====
section
/-! DEFINITION. The plain types of the block: bytes and event words. A time of the spec, a count of ticks that never wraps (R11), is a
plain Nat. -/

namespace Sys2Proof

/-- An unsigned 8-bit value (R13, `UInt8` of the spec). -/
abbrev Byte := BitVec 8

/-- A 16-bit event word (R73). -/
abbrev Word := BitVec 16

end Sys2Proof
end

