-- ==== Sys2Proof/Syntax.lean ====
section
/-! DEFINITION. The operations of the block, one constructor per row of the opcode map (R79). -/

namespace Sys2Proof

/-- The three host registers (R18). -/
inductive HostReg where
  | data | status | control
  deriving DecidableEq, Repr

/-- The register's 2-bit offset in the trace encoding (R44, R75). -/
def HostReg.offset : HostReg → BitVec 2
  | .data => 0
  | .status => 1
  | .control => 2

/-- An operation: an event the environment presents (R6, R79). -/
inductive Instr where
  /-- RD_DATA: host read of DATA, unsupported (R104). -/
  | rdData
  /-- RD_STATUS: host read of STATUS (R103). -/
  | rdStatus
  /-- RD_CONTROL: host read of CONTROL, unsupported (R105). -/
  | rdControl
  /-- WR_DATA: host write of DATA (R88). -/
  | wrData (v : Byte)
  /-- WR_CONTROL: host write of CONTROL (R89). -/
  | wrControl (v : Byte)
  /-- INIT: lifecycle call init (R127). -/
  | init
  /-- CLOSE: lifecycle call close (R130). -/
  | close
  /-- FIRE_PULSE: the pulse timer's callback (R119). -/
  | firePulse
  /-- FIRE_TIMEOUT: the timeout timer's callback (R120). -/
  | fireTimeout
  /-- ADVANCE: the virtual clock moves on by `delta` ticks (R114). -/
  | advance (delta : Nat)
  deriving DecidableEq, Repr

/-- The operation's mnemonic, as the opcode map spells it (R79). -/
def Instr.mnemonic : Instr → String
  | .rdData => "RD_DATA"
  | .rdStatus => "RD_STATUS"
  | .rdControl => "RD_CONTROL"
  | .wrData _ => "WR_DATA"
  | .wrControl _ => "WR_CONTROL"
  | .init => "INIT"
  | .close => "CLOSE"
  | .firePulse => "FIRE_PULSE"
  | .fireTimeout => "FIRE_TIMEOUT"
  | .advance _ => "ADVANCE"

end Sys2Proof
end

