-- ==== Sys2Proof/WellFormed.lean ====
section
/-! DEFINITION. Which operations one event word can spell. -/

namespace Sys2Proof

/-- The largest clock advance of one word (R77). -/
abbrev maxDelta : Nat := 16383

/-- An operation's operands are in range: D is a byte by its type, delta is at most 16383 (R77, R84). -/
def Instr.wellFormed : Instr → Bool
  | .advance delta => decide (delta ≤ maxDelta)
  | .rdData | .rdStatus | .rdControl | .wrData _ | .wrControl _
  | .init | .close | .firePulse | .fireTimeout => true

end Sys2Proof
end

