-- ==== Sys2Proof/Decode.lean ====
section
/-! DEFINITION. Event words: the fields of a word, the opcode map, the decoder and the encoder (30_encoding.md). -/

namespace Sys2Proof

/-! ## Fields (R73 to R77) -/

/-- K = w[15:14]: the format, and for REG the direction (R74). -/
def fieldK (w : Word) : BitVec 2 := w.extractLsb' 14 2

/-- Z = w[13:10]: must be 0000 in a REG or EVT word (R73). -/
def fieldZ (w : Word) : BitVec 4 := w.extractLsb' 10 4

/-- A (REG) or E (EVT) = w[9:8] (R75, R76). -/
def fieldA (w : Word) : BitVec 2 := w.extractLsb' 8 2

/-- D = w[7:0], the byte as written (R75, R78). -/
def fieldD (w : Word) : Byte := w.extractLsb' 0 8

/-- delta = zext(w[13:0]) (R77). -/
def fieldDelta (w : Word) : Nat := (w.extractLsb' 0 14).toNat

/-- The formats of R73, with the direction of a REG word. -/
inductive Format where
  | regRead | regWrite | evt | adv
  deriving DecidableEq, Repr

/-- K selects the format: every word has exactly one (R74). -/
def formatOf (w : Word) : Format :=
  if fieldK w = 0 then .regRead
  else if fieldK w = 1 then .regWrite
  else if fieldK w = 2 then .evt
  else .adv

/-! ## Decoder (R79 to R81) -/

/-- Why a word is reserved: the classes (a) to (e) of R81. -/
inductive Reserved where
  /-- (a) a REG or EVT word with w[13:10] other than 0. -/
  | highBits
  /-- (b) a read word with A = 3. -/
  | readNoRegister
  /-- (b) a read word with D other than 0x00. -/
  | readWithData
  /-- (c) a write word with A = 1: a STATUS write (R106). -/
  | statusWrite
  /-- (d) a write word with A = 3. -/
  | writeNoRegister
  /-- (e) an EVT word with w[7:0] other than 0x00. -/
  | eventWithData
  deriving DecidableEq, Repr

/-- A read word with Z = 0 (R75, R79, R81 (b)). -/
def decodeRead (w : Word) : Except Reserved Instr :=
  if fieldA w = 3 then .error .readNoRegister
  else if fieldD w ≠ 0 then .error .readWithData
  else if fieldA w = HostReg.data.offset then .ok .rdData
  else if fieldA w = HostReg.status.offset then .ok .rdStatus
  else .ok .rdControl

/-- A write word with Z = 0 (R75, R79, R81 (c) and (d)). -/
def decodeWrite (w : Word) : Except Reserved Instr :=
  if fieldA w = HostReg.data.offset then .ok (.wrData (fieldD w))
  else if fieldA w = HostReg.status.offset then .error .statusWrite
  else if fieldA w = HostReg.control.offset then .ok (.wrControl (fieldD w))
  else .error .writeNoRegister

/-- An EVT word with Z = 0 (R76, R79, R81 (e)). -/
def decodeEvent (w : Word) : Except Reserved Instr :=
  if fieldD w ≠ 0 then .error .eventWithData
  else if fieldA w = 0 then .ok .init
  else if fieldA w = 1 then .ok .close
  else if fieldA w = 2 then .ok .firePulse
  else .ok .fireTimeout

/-- The decoder: total on 16-bit words, an operation or the reason the word is reserved (R80, R81). -/
def decodeWord (w : Word) : Except Reserved Instr :=
  match formatOf w with
  | .adv => .ok (.advance (fieldDelta w))
  | .regRead => if fieldZ w ≠ 0 then .error .highBits else decodeRead w
  | .regWrite => if fieldZ w ≠ 0 then .error .highBits else decodeWrite w
  | .evt => if fieldZ w ≠ 0 then .error .highBits else decodeEvent w

/-- The event word of an instruction given as a number of `nbits` bits; a word has 16 bits (R83). -/
def tableWord (nbits w : Nat) : Word := BitVec.ofNat 16 (w % 2 ^ nbits)

/-- The operation the decoder reads from a table row's bits, none where the word is reserved. -/
def decodeTableWord (nbits w : Nat) : Option Instr :=
  match decodeWord (tableWord nbits w) with
  | .ok i => some i
  | .error _ => none

/-! ## Encoder (R79, R84) -/

/-- A REG or EVT word from its fields, with Z = 0 (R73). -/
def packWord (k a : BitVec 2) (d : Byte) : Word := k ++ (0#4 ++ (a ++ d))

/-- The event word of a well-formed operation (R84). -/
def encode : Instr → Word
  | .rdData => packWord 0 HostReg.data.offset 0
  | .rdStatus => packWord 0 HostReg.status.offset 0
  | .rdControl => packWord 0 HostReg.control.offset 0
  | .wrData v => packWord 1 HostReg.data.offset v
  | .wrControl v => packWord 1 HostReg.control.offset v
  | .init => packWord 2 0 0
  | .close => packWord 2 1 0
  | .firePulse => packWord 2 2 0
  | .fireTimeout => packWord 2 3 0
  | .advance delta => 3#2 ++ BitVec.ofNat 14 delta

/-! ## The opcode map as a table (R79) -/

/-- One row of the opcode map. -/
structure OpRow where
  mnemonic : String
  pattern : Word
  mask : Word
  deriving DecidableEq, Repr

/-- The complete opcode map, row by row as R79 prints it. -/
def opcodeMap : List OpRow := [
  ⟨"RD_DATA", 0x0000, 0xFFFF⟩,
  ⟨"RD_STATUS", 0x0100, 0xFFFF⟩,
  ⟨"RD_CONTROL", 0x0200, 0xFFFF⟩,
  ⟨"WR_DATA", 0x4000, 0xFF00⟩,
  ⟨"WR_CONTROL", 0x4200, 0xFF00⟩,
  ⟨"INIT", 0x8000, 0xFFFF⟩,
  ⟨"CLOSE", 0x8100, 0xFFFF⟩,
  ⟨"FIRE_PULSE", 0x8200, 0xFFFF⟩,
  ⟨"FIRE_TIMEOUT", 0x8300, 0xFFFF⟩,
  ⟨"ADVANCE", 0xC000, 0xC000⟩]

/-- A word selects a row when `w & mask = match` (R79). -/
def OpRow.selects (r : OpRow) (w : Word) : Bool := decide (w &&& r.mask = r.pattern)

end Sys2Proof
end

