-- ==== Sys2Proof/Config.lean ====
section
/-! DEFINITION. What is fixed for one machine (R7 to R12). An OPEN parameter of the spec is a constant with no body, so
a theorem holds whatever its value; a bound the spec sets on it holds by the way the constant is built (log 7). -/

namespace Sys2Proof.Config

/-- CAPACITY, the size of the output buffer in bytes (R7). -/
abbrev capacity : Nat := 4096

/-- PULSE_DELAY less one: any natural number. -/
opaque pulseDelayPred : Nat

/-- PULSE_DELAY, the ACK pulse width in ticks: OPEN, at least 1 (R8). -/
def pulseDelay : Nat := pulseDelayPred + 1

/-- TIMEOUT_DELAY less one: any natural number. -/
opaque timeoutDelayPred : Nat

/-- TIMEOUT_DELAY, the job-inactivity timeout in ticks: OPEN, at least 1 (R9). -/
def timeoutDelay : Nat := timeoutDelayPred + 1

/-- ACK_BIT, the bit of STATUS that shows the acknowledge: OPEN (R10). -/
opaque ackBit : Fin 8

/-- `1 << ACK_BIT`. -/
def ackMask : Byte := 1#8 <<< ackBit.val

/-- The other bits of STATUS, any byte; its bit ACK_BIT is not used. -/
opaque statusBits : Byte

/-- STATUS_FIXED: OPEN, with bit ACK_BIT clear (R10). -/
def statusFixed : Byte := statusBits &&& ~~~ackMask

/-- TIME_UNIT, the length of one tick: OPEN, read by no rule (R11). -/
opaque timeUnit : Nat

/-- USER_DATA_ROOT, the path under which `printer/` lives: OPEN (R12 (e), R57). -/
opaque userDataRoot : List Char

/-- PORT_BASE, the base port address: OPEN, read by no rule (R12, R44). -/
opaque portBase : Nat

end Sys2Proof.Config
end

