-- ==== Sys2Proof/Machine/State.lean ====
section
/-! DEFINITION. The state of the block and of its environment (10_state.md), plain data; the reasons a step can stop;
the state at the start of a run. -/

namespace Sys2Proof.Machine

/-- A wall-clock time to the second, the draw `stamp` (R12 (c), R58). PRESUMED (log 8): the field ranges; they admit every
calendar date of a four-digit year, a leap second, and dates no calendar has, so the difference is safe. -/
structure WallClock where
  year : Fin 10000
  month : Fin 13
  day : Fin 32
  hour : Fin 24
  minute : Fin 60
  second : Fin 61
  deriving DecidableEq, Repr

/-- A path relative to USER_DATA_ROOT, as text (R57, R58; log 6). -/
abbrev FileName := List Char

/-- The file-system map (R22): names strictly rising, an unlisted name does not exist. -/
abbrev FileSystem := List (FileName × List Byte)

/-- The buffer's storage (R29): addresses strictly rising, an unlisted byte reads as 0x00, the value R36 gives `buf`
after init (log 10). -/
abbrev Memory := List Host.Cell

/-- The environment's draws for one step (R12 (a) to (d)): free inputs that obey no law. -/
structure Draws where
  allocOk : Bool
  openOk : Bool
  stamp : WallClock
  rdVal : Byte
  deriving DecidableEq, Repr

/-- One event the environment presents: its word, and the draws of its step (R6, R12, R83; log 1). -/
structure Event where
  word : Word
  draws : Draws
  deriving DecidableEq, Repr

/-- What a diagnostic reports; there is one (R15, R142). -/
inductive Diagnostic where
  | openFailed
  deriving DecidableEq, Repr

/-- An observable output event (R15). -/
inductive OutEvent where
  /-- An interrupt signalled to the host context. -/
  | irq
  /-- A file opened in append mode. -/
  | sinkOpen (name : FileName)
  /-- A byte sequence appended to the open file. -/
  | sinkWrite (bytes : List Byte)
  /-- The open file closed. -/
  | sinkClose (name : FileName)
  /-- The operator-visible diagnostic. -/
  | diag (d : Diagnostic)
  deriving DecidableEq, Repr

/-- The fields of a Present device, in the order of R21. The cursor's type is its range [0, CAPACITY]. -/
structure DeviceState where
  dataLatch : Byte
  control : Byte
  autofeed : Bool
  selected : Bool
  ackPending : Bool
  busy : Bool
  interruptPending : Bool
  errorFlag : Bool
  buf : Memory
  cursor : Fin (Config.capacity + 1)
  outputFile : Option FileName
  pulseDeadline : Option Nat
  timeoutDeadline : Option Nat
  deriving DecidableEq, Repr

/-- The device object (R17). -/
inductive Device where
  | absent
  | present (d : DeviceState)
  deriving DecidableEq, Repr

/-- The whole state: the device (R17), the environment state of R22, the last step's return value (R87), and the
environment's inputs: the draws of the step in progress and the events yet to be presented (R6, R12). -/
structure State where
  dev : Device
  now : Nat
  fs : FileSystem
  out : List OutEvent
  refused : Bool
  ret : Option Byte
  draws : Draws
  trace : List Event
  deriving DecidableEq, Repr

/-- Stuck steps: the event is not enabled, so the model has no step (R16, R147). Each is safe: the model stops. -/
inductive Fault where
  /-- FIRE_PULSE while the device is Absent or `pulseDeadline` is not `some now` (R119, R125). Raised by FIRE_PULSE. Safe. -/
  | pulseNotDue
  /-- FIRE_TIMEOUT while the device is Absent or `timeoutDeadline` is not `some now` (R120, R125). Raised by FIRE_TIMEOUT.
  Safe. -/
  | timeoutNotDue
  /-- ADVANCE past an armed deadline (R115). Raised by ADVANCE. Safe. -/
  | pastDeadline
  /-- BufAppend with `cursor = CAPACITY`: index 4096 of `buf` does not exist. No run reaches it (R34 I1; log 11). Raised by
  WR_CONTROL. Safe. -/
  | bufferFull
  /-- No event is left in the trace (log 2). Raised by the step. Safe. -/
  | traceEnded
  deriving DecidableEq, Repr

/-- Refusals of the model. A reserved word and a second init are not among them: the spec gives their refusal an effect,
the mark `refused` (R81, R134; log 3). -/
inductive Refusal where
  /-- An instruction that has no meaning in the model yet. Raised by a refused arm of exec, of which there is none. Safe. -/
  | notModelled (mnemonic : String)
  deriving DecidableEq, Repr

/-- The draws that stand in State before any event is presented. DESIGN CHOICE (log 1), unsafe for a statement that rests on
it: no statement does. -/
def Draws.reset : Draws :=
  { allocOk := true, openOk := true, stamp := ⟨0, 1, 1, 0, 0, 0⟩, rdVal := 0x00#8 }

/-- The start of a run with an initial file system and a trace (R22, R126): the device Absent, the clock at 0, nothing
emitted, no refusal. -/
def State.start (fs : FileSystem) (trace : List Event) : State :=
  { dev := .absent, now := 0, fs := fs, out := [], refused := false, ret := none, draws := Draws.reset, trace := trace }

/-- The machine right after reset: the start of a run with no file listed (DESIGN CHOICE, log 5) and nothing presented yet
(DESIGN CHOICE, log 2). -/
def State.reset : State := State.start [] []

end Sys2Proof.Machine
end

