-- ==== Sys2Proof/Machine/Operands.lean ====
section
/-! DEFINITION. What the operations read: bits of a byte, the buffer's bytes, file contents, armed deadlines, file names. -/

namespace Sys2Proof.Machine

/-- `v[i]`, bit 0 the least significant (R13; log 14). -/
def bit (v : Byte) (i : Nat) : Bool := v.getLsbD i

/-! ## The buffer's storage -/

/-- `buf[a]`: an unlisted byte reads as 0x00 (R14, R36). -/
def Memory.read : Memory → Nat → Byte
  | [], _ => 0x00#8
  | (b, w) :: rest, a => if a = b then w else Memory.read rest a

/-- The canonical form: addresses strictly rising and below CAPACITY, no byte equal to what an unlisted one reads as. -/
abbrev Memory.wf (m : Memory) : Prop :=
  m.Pairwise (fun c c' => c.1 < c'.1) ∧ ∀ c ∈ m, c.1 < Config.capacity ∧ c.2 ≠ 0x00#8

/-- `buf[0 .. cursor-1]`, oldest first (R29, R40). -/
def bufferedBytes (d : DeviceState) : List Byte :=
  (List.range d.cursor.val).map (Memory.read d.buf)

/-- The bytes buffered for a device: none when it is Absent (R38). -/
def Device.buffered : Device → List Byte
  | .absent => []
  | .present d => bufferedBytes d

/-! ## The file-system map -/

/-- `fs(n)`: the content of file n, none if it does not exist (R22). -/
def FileSystem.content : FileSystem → FileName → Option (List Byte)
  | [], _ => none
  | (m, c) :: rest, n => if n = m then some c else FileSystem.content rest n

/-- The canonical form: names strictly rising. -/
abbrev FileSystem.wf (fs : FileSystem) : Prop := fs.Pairwise (fun e e' => e.1 < e'.1)

/-! ## Deadlines -/

/-- The deadlines of the armed timers, pulse then timeout; an Absent device has none (R31, R32, R38). -/
def Device.deadlines : Device → List Nat
  | .absent => []
  | .present d => d.pulseDeadline.toList ++ d.timeoutDeadline.toList

/-- ADVANCE's enabling condition: `now + delta <= d` for every armed deadline d (R115). -/
def advanceEnabled (s : State) (delta : Nat) : Bool :=
  s.dev.deadlines.all fun d => decide (s.now + delta ≤ d)

/-! ## File names (R58) -/

/-- A decimal digit as text. -/
def digit (n : Nat) : Char := Char.ofNat (48 + n % 10)

/-- Two digits, zero-padded. -/
def twoDigits (n : Nat) : List Char := [digit (n / 10), digit n]

/-- Four digits, zero-padded. -/
def fourDigits (n : Nat) : List Char := twoDigits (n / 100) ++ twoDigits n

/-- `printer/print_<YYYYMMDD>_<HHMMSS>.prn`, relative to USER_DATA_ROOT (R57, R58; log 6). -/
def fileName (t : WallClock) : FileName :=
  "printer/print_".toList ++ fourDigits t.year ++ twoDigits t.month ++ twoDigits t.day ++ ['_']
    ++ twoDigits t.hour ++ twoDigits t.minute ++ twoDigits t.second ++ ".prn".toList

/-- The whole path of a file: `<USER_DATA_ROOT>/` and its name (R57). -/
def filePath (n : FileName) : List Char := Config.userDataRoot ++ '/' :: n

end Sys2Proof.Machine
end

