-- ==== Sys2Proof/Machine/Flags.lean ====
section
/-! DEFINITION. What a CONTROL write makes of the flags, and the STATUS byte (R89 to R103). -/

namespace Sys2Proof.Machine

/-- RESET edge: bit 2 of the written byte is 1 and bit 2 of the previous one was 0 (R98). -/
def resetEdge (old v : Byte) : Bool := bit v 2 && !bit old 2

/-- STROBE edge: bit 0 of the written byte is 0 and bit 0 of the previous one was 1 (R99). -/
def strobeEdge (old v : Byte) : Bool := !bit v 0 && bit old 0

/-- `autofeed` after a CONTROL write: bit 1 of the written byte (R92). -/
def autofeedAfter (v : Byte) : Bool := bit v 1

/-- `selected` after the SELECT sub-step: set when bit 3 is 1, else unchanged (R93). -/
def selectedAfter (v : Byte) (selected : Bool) : Bool := if bit v 3 then true else selected

/-- A status byte from its fixed bits and its ACK mask: the ACK bit is active-low (R24, R103). -/
def statusByte (fixed mask : Byte) (ackPending : Bool) : Byte :=
  fixed ||| (if ackPending then 0x00#8 else mask)

/-- The value of STATUS (R24, R103). -/
def statusValue (d : DeviceState) : Byte := statusByte Config.statusFixed Config.ackMask d.ackPending

end Sys2Proof.Machine
end

