-- ==== Sys2Proof/Machine/Ops.lean ====
section
/-! DEFINITION. The shared operations: updates of the state, the buffer, the file sink, the timers, and the internal
actions of the handshake. The block takes no traps (R154), so there is no exception entry and no return from one; its one
output to the host is the `Irq` event (R148, R151). -/

namespace Sys2Proof.Machine

/-! ## Updates of the state -/

/-- `emit E`: append an event to the output trace (R14, R15). -/
def State.emit (s : State) (e : OutEvent) : State := { s with out := s.out ++ [e] }

/-- The step's return value (R87; for a step that is no register access: log 4). -/
def State.answer (s : State) (r : Option Byte) : State := { s with ret := r }

/-- The device object becomes `dev` (R17). -/
def State.setDevice (s : State) (dev : Device) : State := { s with dev := dev }

/-- The file-system map becomes `fs` (R22). -/
def State.setFiles (s : State) (fs : FileSystem) : State := { s with fs := fs }

/-- The virtual clock moves on (R114). -/
def State.addTime (s : State) (delta : Nat) : State := { s with now := s.now + delta }

/-- The refusal mark is set; it is never cleared (R16; log 3). -/
def State.mark (s : State) : State := { s with refused := true }

/-- The next event is taken: the rest of the trace remains, its draws are those of this step (R6, R12; log 1). -/
def State.take (s : State) (draws : Draws) (rest : List Event) : State := { s with draws := draws, trace := rest }

/-- An event word is put before the rest of the trace, with the draws that stand in the state (log 2). -/
def State.present (s : State) (w : Word) : State := { s with trace := ⟨w, s.draws⟩ :: s.trace }

/-! ## Updates of the device -/

/-- `dataLatch <- v` (R88). -/
def DeviceState.latch (d : DeviceState) (v : Byte) : DeviceState := { d with dataLatch := v }

/-- `control <- v`, the whole byte (R100). -/
def DeviceState.setControl (d : DeviceState) (v : Byte) : DeviceState := { d with control := v }

/-- `autofeed <- b` (R92). -/
def DeviceState.setAutofeed (d : DeviceState) (b : Bool) : DeviceState := { d with autofeed := b }

/-- `selected <- b` (R93, R98). -/
def DeviceState.setSelected (d : DeviceState) (b : Bool) : DeviceState := { d with selected := b }

/-- `ackPending <- b` (R101, R102, R119). -/
def DeviceState.setAck (d : DeviceState) (b : Bool) : DeviceState := { d with ackPending := b }

/-- `cursor <- 0`: nothing is buffered any more (R52). -/
def DeviceState.emptied (d : DeviceState) : DeviceState := { d with cursor := 0 }

/-- `outputFile <- f` (R30). -/
def DeviceState.setFile (d : DeviceState) (f : Option FileName) : DeviceState := { d with outputFile := f }

/-- The pulse timer's deadline (R31): `some` arms it, `none` disarms it. -/
def DeviceState.setPulse (d : DeviceState) (t : Option Nat) : DeviceState := { d with pulseDeadline := t }

/-- The timeout timer's deadline (R32). -/
def DeviceState.setTimeout (d : DeviceState) (t : Option Nat) : DeviceState := { d with timeoutDeadline := t }

/-- arm(pulse, delay): the deadline is `now + delay`, whatever it was (R117). -/
def armPulse (now delay : Nat) (d : DeviceState) : DeviceState := d.setPulse (some (now + delay))

/-- arm(timeout, delay) (R117). -/
def armTimeout (now delay : Nat) (d : DeviceState) : DeviceState := d.setTimeout (some (now + delay))

/-- disarm(pulse) (R118). -/
def disarmPulse (d : DeviceState) : DeviceState := d.setPulse none

/-- disarm(timeout) (R118). -/
def disarmTimeout (d : DeviceState) : DeviceState := d.setTimeout none

/-- The device a successful init creates: every field of R36 (R128, R129). -/
def initialDevice : DeviceState :=
  { dataLatch := 0x00#8, control := 0x00#8, autofeed := false, selected := false, ackPending := false, busy := false,
    interruptPending := false, errorFlag := false, buf := [], cursor := 0, outputFile := none, pulseDeadline := none,
    timeoutDeadline := none }

/-! ## The buffer -/

/-- `buf[a] <- v`, keeping the canonical form: writing 0x00 removes the entry. -/
def Memory.write : Memory → Nat → Byte → Memory
  | [], a, v => if v = 0x00#8 then [] else [(a, v)]
  | (b, w) :: rest, a, v =>
    if a < b then (if v = 0x00#8 then (b, w) :: rest else (a, v) :: (b, w) :: rest)
    else if a = b then (if v = 0x00#8 then rest else (a, v) :: rest)
    else (b, w) :: Memory.write rest a v

/-- BufAppend(v): `buf[cursor] <- v` and the cursor moves on; none when no slot is free (R47; log 11). -/
def bufAppend (v : Byte) (d : DeviceState) : Option DeviceState :=
  if h : d.cursor.val < Config.capacity then
    some { d with buf := Memory.write d.buf d.cursor.val v, cursor := ⟨d.cursor.val + 1, Nat.succ_lt_succ h⟩ }
  else none

/-! ## The file sink -/

/-- `fs(n) <- some c`, keeping the names strictly rising. -/
def FileSystem.put : FileSystem → FileName → List Byte → FileSystem
  | [], n, c => [(n, c)]
  | (m, b) :: rest, n, c =>
    if n < m then (n, c) :: (m, b) :: rest
    else if n = m then (n, c) :: rest
    else (m, b) :: FileSystem.put rest n c

/-- FsOpenAppend(n): a file that does not exist is created empty, content that exists is kept (R59). -/
def FileSystem.openAppend (fs : FileSystem) (n : FileName) : FileSystem :=
  match FileSystem.content fs n with
  | some _ => fs
  | none => FileSystem.put fs n []

/-- FsWrite(n, bytes): the bytes are appended, all of them (R60; a name that does not exist: log 12). -/
def FileSystem.append (fs : FileSystem) (n : FileName) (bytes : List Byte) : FileSystem :=
  FileSystem.put fs n ((FileSystem.content fs n).getD [] ++ bytes)

/-- The opening part of Flush: the file is opened in append mode and `SinkOpen` emitted (R55, R59). -/
def openSink (n : FileName) (d : DeviceState) (s : State) : DeviceState × State :=
  (d.setFile (some n), (s.setFiles (FileSystem.openAppend s.fs n)).emit (.sinkOpen n))

/-- The writing part of Flush: the buffered bytes go to the open file n, `SinkWrite` is emitted, the cursor becomes 0
(R54, R60). -/
def writeSink (n : FileName) (d : DeviceState) (s : State) : DeviceState × State :=
  (d.emptied, (s.setFiles (FileSystem.append s.fs n (bufferedBytes d))).emit (.sinkWrite (bufferedBytes d)))

/-- A failed open: the buffered bytes are dropped and the diagnostic is emitted (R56, R142). -/
def dropBuffered (d : DeviceState) (s : State) : DeviceState × State :=
  (d.emptied, s.emit (.diag .openFailed))

/-- Flush() (R52): the device and the state after it. -/
def flush (d : DeviceState) (s : State) : DeviceState × State :=
  if d.cursor.val = 0 then (d, s)
  else
    match d.outputFile with
    | some n => writeSink n d s
    | none =>
      if s.draws.openOk then
        let opened := openSink (fileName s.draws.stamp) d s
        writeSink (fileName s.draws.stamp) opened.1 opened.2
      else dropBuffered d s

/-- The end of a job: an open file is closed, which emits `SinkClose` and changes no content (R61, R120, R130). -/
def closeSink (d : DeviceState) (s : State) : DeviceState × State :=
  match d.outputFile with
  | some n => (d.setFile none, s.emit (.sinkClose n))
  | none => (d, s)

/-- Flush, then close the file: what the timeout fire and close both begin with (R120, R130). -/
def endJob (d : DeviceState) (s : State) : DeviceState × State :=
  let flushed := flush d s
  closeSink flushed.1 flushed.2

/-! ## The handshake -/

/-- What AcceptByte does after the buffer: ACK active, both timers armed from now (R101). -/
def startAck (now : Nat) (d : DeviceState) : DeviceState :=
  armTimeout now Config.timeoutDelay (armPulse now Config.pulseDelay (d.setAck true))

/-- AcceptByte(): append the latch, flush a full buffer, start the ACK (R101, R48); none where BufAppend has no slot. -/
def acceptByte (d : DeviceState) (s : State) : Option (DeviceState × State) :=
  match bufAppend d.dataLatch d with
  | none => none
  | some full =>
    let stored := if full.cursor.val = Config.capacity then flush full s else (full, s)
    some (startAck stored.2.now stored.1, stored.2)

/-- Reset(): ACK cleared, both timers disarmed; the buffer and the file stay (R102). -/
def resetHandshake (d : DeviceState) : DeviceState := disarmTimeout (disarmPulse (d.setAck false))

/-- The RESET-edge sub-step: `selected` cleared, then Reset (R98). -/
def resetStep (old v : Byte) (d : DeviceState) : DeviceState :=
  if resetEdge old v then resetHandshake (d.setSelected false) else d

/-- The sub-steps of a CONTROL write before the STROBE edge: AUTOFEED, SELECT, RESET edge (R89, R90). -/
def controlLevels (v : Byte) (d : DeviceState) : DeviceState :=
  resetStep d.control v ((d.setAutofeed (autofeedAfter v)).setSelected (selectedAfter v d.selected))

/-- The STROBE-edge sub-step (R99). -/
def strobeStep (old v : Byte) (d : DeviceState) (s : State) : Option (DeviceState × State) :=
  if strobeEdge old v then acceptByte d s else some (d, s)

/-- writeControl(v) on a Present device: the sub-steps in the order of R90, the store last (R89, R100). -/
def writeControl (v : Byte) (d : DeviceState) (s : State) : Option (DeviceState × State) :=
  match strobeStep d.control v (controlLevels v d) s with
  | none => none
  | some r => some (r.1.setControl v, r.2)

/-- The pulse timer's callback: a pending ACK ends with one `Irq`, and the timer disarms itself (R119). -/
def pulseCallback (d : DeviceState) (s : State) : DeviceState × State :=
  if d.ackPending then (disarmPulse (d.setAck false), s.emit .irq) else (disarmPulse d, s)

/-- The timeout timer's callback: the job ends, and the timer disarms itself (R120). -/
def timeoutCallback (d : DeviceState) (s : State) : DeviceState × State :=
  let ended := endJob d s
  (disarmTimeout ended.1, ended.2)

/-- close on a Present device, to the release: flush, close the file, disarm both timers (R130). -/
def teardown (d : DeviceState) (s : State) : DeviceState × State :=
  let ended := endJob d s
  (disarmTimeout (disarmPulse ended.1), ended.2)

/-- A device and a state put together again. -/
def rejoin (r : DeviceState × State) : State := r.2.setDevice (.present r.1)

/-! ## Events -/

/-- Refusing an event: the mark is set, nothing is returned, and all else stays (R16, R81, R134; log 3). -/
def refuseEvent (s : State) : Host.Outcome State Fault Refusal := .next (s.mark.answer none)

/-- A reserved word is refused, whichever class of R81 it falls in. -/
def refuseReserved (_ : Reserved) (s : State) : Host.Outcome State Fault Refusal := refuseEvent s

/-- The next event word of the trace, and the state in which its step runs; none when the trace is empty (R6, R83). -/
def fetch (s : State) : Option (Word × State) :=
  match s.trace with
  | [] => none
  | e :: rest => some (e.word, s.take e.draws rest)

end Sys2Proof.Machine
end

