-- ==== Sys2Proof/Machine/Lifecycle.lean ====
section
/-! DEFINITION. The lifecycle operations INIT and CLOSE (42_lifecycle.md). -/

namespace Sys2Proof.Machine

/-- INIT: on an Absent device creates the zeroed device where the allocation succeeds, else it stays Absent and nothing is
recorded (R127, R133, R141); on a Present device refused (R134). -/
def execInit (s : State) : Host.Outcome State Fault Refusal :=
  match s.dev with
  | .absent => .next (State.answer (if s.draws.allocOk then s.setDevice (.present initialDevice) else s) none)
  | .present _ => refuseEvent s

/-- CLOSE: flush, close the file, disarm both timers, release the device; nothing on an Absent device (R130, R135). -/
def execClose (s : State) : Host.Outcome State Fault Refusal :=
  match s.dev with
  | .absent => .next (s.answer none)
  | .present d => .next (((teardown d s).2.setDevice .absent).answer none)

end Sys2Proof.Machine
end

