-- ==== Sys2Proof/Machine/Registers.lean ====
section
/-! DEFINITION. The register operations: RD_DATA, RD_STATUS, RD_CONTROL, WR_DATA, WR_CONTROL (40_register_ops.md). -/

namespace Sys2Proof.Machine

/-- A read the device does not supply: the byte is the draw `rdVal`, and nothing else changes (R104, R105, R137). -/
def unsuppliedRead (s : State) : Host.Outcome State Fault Refusal := .next (s.answer (some s.draws.rdVal))

/-- RD_DATA: unsupported, the value is a draw, Present or Absent (R104, R137). -/
def execRdData (s : State) : Host.Outcome State Fault Refusal := unsuppliedRead s

/-- RD_CONTROL: unsupported, the value is a draw, Present or Absent (R105, R137). -/
def execRdControl (s : State) : Host.Outcome State Fault Refusal := unsuppliedRead s

/-- RD_STATUS: the status byte, without side effect; a draw on an Absent device (R103, R137). -/
def execRdStatus (s : State) : Host.Outcome State Fault Refusal :=
  match s.dev with
  | .absent => unsuppliedRead s
  | .present d => .next (s.answer (some (statusValue d)))

/-- WR_DATA: the latch takes the byte; nothing on an Absent device (R88, R136). -/
def execWrData (v : Byte) (s : State) : Host.Outcome State Fault Refusal :=
  match s.dev with
  | .absent => .next (s.answer none)
  | .present d => .next ((rejoin (d.latch v, s)).answer none)

/-- WR_CONTROL: writeControl; nothing on an Absent device (R89, R136). -/
def execWrControl (v : Byte) (s : State) : Host.Outcome State Fault Refusal :=
  match s.dev with
  | .absent => .next (s.answer none)
  | .present d =>
    match writeControl v d s with
    | some r => .next ((rejoin r).answer none)
    | none => .fault .bufferFull

end Sys2Proof.Machine
end

