-- ==== Sys2Proof/Machine/Timers.lean ====
section
/-! DEFINITION. The clock and the timer callbacks: ADVANCE, FIRE_PULSE, FIRE_TIMEOUT (41_timers_and_clock.md). -/

namespace Sys2Proof.Machine

/-- ADVANCE: the clock moves on by delta where no armed deadline is passed, else the step is stuck (R114, R115). -/
def execAdvance (delta : Nat) (s : State) : Host.Outcome State Fault Refusal :=
  if advanceEnabled s delta then .next ((s.addTime delta).answer none) else .fault .pastDeadline

/-- FIRE_PULSE: the pulse callback where the device is Present and the timer due, else stuck (R119, R125). -/
def execFirePulse (s : State) : Host.Outcome State Fault Refusal :=
  match s.dev with
  | .absent => .fault .pulseNotDue
  | .present d =>
    if d.pulseDeadline = some s.now then .next ((rejoin (pulseCallback d s)).answer none) else .fault .pulseNotDue

/-- FIRE_TIMEOUT: the timeout callback where the device is Present and the timer due, else stuck (R120, R125). -/
def execFireTimeout (s : State) : Host.Outcome State Fault Refusal :=
  match s.dev with
  | .absent => .fault .timeoutNotDue
  | .present d =>
    if d.timeoutDeadline = some s.now then .next ((rejoin (timeoutCallback d s)).answer none)
    else .fault .timeoutNotDue

end Sys2Proof.Machine
end

