-- ==== Sys2Proof/Machine/Dispatch.lean ====
section
/-! DEFINITION. One arm per operation of the opcode map (R79). -/

namespace Sys2Proof.Machine

def exec (i : Instr) (s : State) : Host.Outcome State Fault Refusal :=
  match i with
  | .rdData => Sys2Proof.Machine.execRdData s
  | .rdStatus => Sys2Proof.Machine.execRdStatus s
  | .rdControl => Sys2Proof.Machine.execRdControl s
  | .wrData v => Sys2Proof.Machine.execWrData v s
  | .wrControl v => Sys2Proof.Machine.execWrControl v s
  | .init => Sys2Proof.Machine.execInit s
  | .close => Sys2Proof.Machine.execClose s
  | .firePulse => Sys2Proof.Machine.execFirePulse s
  | .fireTimeout => Sys2Proof.Machine.execFireTimeout s
  | .advance delta => Sys2Proof.Machine.execAdvance delta s

end Sys2Proof.Machine
end

