-- ==== Sys2Proof/Machine/Step.lean ====
section
/-! DEFINITION. One step: the next event of the trace is taken, decoded and executed (R6, R64, R80, R81). -/

namespace Sys2Proof.Machine

/-- One atomic step of the model (R64): the next event word is executed, or refused where it is reserved; with no event left
there is no step (log 2). -/
def step (s : State) : Host.Outcome State Fault Refusal :=
  match fetch s with
  | none => .fault .traceEnded
  | some (w, s') =>
    match decodeWord w with
    | .ok i => exec i s'
    | .error r => refuseReserved r s'

/-- `s` with an instruction's word as the very next event of its trace, and the draws that stand in `s` (log 2). -/
def State.withFetchWord (s : State) (nbits w : Nat) : State := s.present (tableWord nbits w)

end Sys2Proof.Machine
end

