-- ==== Sys2Proof/Machine/Assembler.lean ====
section
/-! DEFINITION. The spec's assembler syntax and pseudo-instructions (R84, R85), and running a list of operations. -/

namespace Sys2Proof.Machine

/-! ## Pseudo-instructions (R85) -/

/-- `strobe c`. -/
def strobe (c : Byte) : List Instr := [.wrControl (c ||| 0x01#8), .wrControl (c &&& 0xFE#8)]

/-- `send b, c`. -/
def send (b c : Byte) : List Instr := .wrData b :: strobe c

/-- `reset c`. -/
def resetPulse (c : Byte) : List Instr := [.wrControl (c &&& 0xFA#8), .wrControl ((c ||| 0x04#8) &&& 0xFE#8)]

/-- `adv.long n`. -/
def advLong (n : Nat) : List Instr := List.replicate (n / maxDelta) (.advance maxDelta) ++ [.advance (n % maxDelta)]

/-- `ack`. -/
def ackPulse : List Instr := [.advance Config.pulseDelay, .firePulse]

/-- The operations one after the other, stopping at the first that gives no next state (R64, R65). -/
def execAll : List Instr → State → Host.Outcome State Fault Refusal
  | [], s => .next s
  | i :: is, s =>
    match exec i s with
    | .next s' => execAll is s'
    | .fault r => .fault r
    | .refused r => .refused r

/-! ## Assembler syntax (R84) -/

/-- The value of a digit in a base, none if it is no digit of it. -/
def digitValue (base : Nat) (ch : Char) : Option Nat :=
  let n := ch.toNat
  let v := if 48 ≤ n ∧ n ≤ 57 then n - 48 else if 97 ≤ n ∧ n ≤ 102 then n - 87 else if 65 ≤ n ∧ n ≤ 70 then n - 55 else 16
  if v < base then some v else none

/-- A digit string in a base, most significant first, onto an accumulator. -/
def digitsValue (base : Nat) : Nat → List Char → Option Nat
  | acc, [] => some acc
  | acc, ch :: rest =>
    match digitValue base ch with
    | some v => digitsValue base (acc * base + v) rest
    | none => none

/-- A number: decimal, or hexadecimal with `0x`. -/
def number : List Char → Option Nat
  | [] => none
  | ['0', 'x'] => none
  | '0' :: 'x' :: ds => digitsValue 16 0 ds
  | ds => digitsValue 10 0 ds

/-- Spaces, tabs and commas part the tokens of a line. -/
def isSeparator (ch : Char) : Bool := ch = ' ' || ch = '\t' || ch = ','

/-- The tokens of a line without its comment: `#` starts a comment that runs to the end of the line. -/
def tokens (line : List Char) : List (List Char) :=
  ((line.takeWhile (· ≠ '#')).foldr
    (fun ch acc =>
      if isSeparator ch then [] :: acc
      else
        match acc with
        | [] => [[ch]]
        | t :: ts => (ch :: t) :: ts)
    []).filter (· ≠ [])

/-- A byte operand, 0 to 255. -/
def byteOperand (n : Nat) : Option Byte := if n ≤ 255 then some (BitVec.ofNat 8 n) else none

/-- The operations a name and its operands spell, a pseudo-instruction expanded; none for an unknown name, a wrong number of
operands or a byte out of range. -/
def spelled (op : List Char) : List Nat → Option (List Instr)
  | [] =>
    if op = "rd.data".toList then some [.rdData]
    else if op = "rd.status".toList then some [.rdStatus]
    else if op = "rd.control".toList then some [.rdControl]
    else if op = "init".toList then some [.init]
    else if op = "close".toList then some [.close]
    else if op = "fire.pulse".toList then some [.firePulse]
    else if op = "fire.timeout".toList then some [.fireTimeout]
    else if op = "ack".toList then some ackPulse
    else none
  | [n] =>
    if op = "adv".toList then some [.advance n]
    else if op = "adv.long".toList then some (advLong n)
    else if op = "wr.data".toList then (byteOperand n).map fun v => [.wrData v]
    else if op = "wr.control".toList then (byteOperand n).map fun v => [.wrControl v]
    else if op = "strobe".toList then (byteOperand n).map strobe
    else if op = "reset".toList then (byteOperand n).map resetPulse
    else none
  | [m, n] =>
    if op = "send".toList then (byteOperand m).bind fun b => (byteOperand n).map (send b) else none
  | _ => none

/-- One line: no operation for an empty one, none (an assembly error) where it does not spell operations that are in range. -/
def assembleLine (line : List Char) : Option (List Instr) :=
  match tokens line with
  | [] => some []
  | op :: operands =>
    match operands.mapM number with
    | none => none
    | some ns => (spelled op ns).bind fun is => if is.all Instr.wellFormed then some is else none

/-- The words of a trace written one operation a line. -/
def assemble (lines : List (List Char)) : Option (List Word) :=
  (lines.mapM assembleLine).map fun is => is.flatten.map encode

end Sys2Proof.Machine
end

