-- ==== Sys2Proof/Machine/Errors.lean ====
section
/-! DEFINITION. The error taxonomy (R140): which error an operation meets. An error is recorded only by what the operation
does to the state (R141 to R145); this file names it for statements. -/

namespace Sys2Proof.Machine

/-- The three error classes (R140). -/
inductive ErrorClass where
  /-- E1: init's allocation failed. -/
  | allocFailed
  /-- E2: a flush's directory creation or file open failed. -/
  | openFailed
  /-- E3: an operation on an Absent device. -/
  | nullHandle
  deriving DecidableEq, Repr

/-- The codes E1 to E3 (R140). -/
def ErrorClass.code : ErrorClass → Nat
  | .allocFailed => 1
  | .openFailed => 2
  | .nullHandle => 3

/-- The numeric tag of an output event (R146). -/
def OutEvent.tag : OutEvent → Nat
  | .irq => 0
  | .sinkOpen _ => 1
  | .sinkWrite _ => 2
  | .sinkClose _ => 3
  | .diag _ => 4

/-- A flush of `n` buffered bytes would meet a failed open (R53 to R56). -/
def openFails (n : Nat) (d : DeviceState) (s : State) : Bool :=
  decide (n ≠ 0) && d.outputFile.isNone && !s.draws.openOk

/-- The error an enabled operation meets, at most one (R140, R152). -/
def errorOf (i : Instr) (s : State) : Option ErrorClass :=
  match s.dev with
  | .absent =>
    match i with
    | .init => if s.draws.allocOk then none else some .allocFailed
    | .advance _ | .firePulse | .fireTimeout => none
    | .rdData | .rdStatus | .rdControl | .wrData _ | .wrControl _ | .close => some .nullHandle
  | .present d =>
    match i with
    | .wrControl v =>
      if strobeEdge d.control v && decide (d.cursor.val + 1 = Config.capacity) && openFails Config.capacity d s then
        some .openFailed
      else none
    | .close | .fireTimeout => if openFails d.cursor.val d s then some .openFailed else none
    | .rdData | .rdStatus | .rdControl | .wrData _ | .init | .firePulse | .advance _ => none

end Sys2Proof.Machine
end

