-- ==== Sys2Proof/Safety.lean ====
section
/-! DEFINITION. What a safe state is, and what a run lets its observers see, in the terms the statements use. -/

namespace Sys2Proof.Machine

/-! ## What the output trace says -/

/-- The file a single event leaves open, given the one open before it. -/
def openAfter (was : Option FileName) : OutEvent → Option FileName
  | .sinkOpen n => some n
  | .sinkClose _ => none
  | .irq | .sinkWrite _ | .diag _ => was

/-- The file the output trace leaves open: the last `SinkOpen` not yet followed by a `SinkClose` (R30, R35). -/
def openInLog (out : List OutEvent) : Option FileName := out.foldl openAfter none

/-- The payload of an event: the bytes of a `SinkWrite`. -/
def payload : OutEvent → List Byte
  | .sinkWrite bytes => bytes
  | .irq | .sinkOpen _ | .sinkClose _ | .diag _ => []

/-- The concatenation of the `SinkWrite` payloads, in emission order (R40, R70). -/
def written (out : List OutEvent) : List Byte := out.flatMap payload

/-- How many interrupts the output trace holds (R148). -/
def irqCount (out : List OutEvent) : Nat := out.count .irq

/-- How many failed opens the output trace reports (R142). -/
def failedOpens (out : List OutEvent) : Nat := out.count (.diag .openFailed)

/-- The byte an operation accepts into the stream: the latch, at a STROBE edge on a Present device (R99, R101). -/
def acceptedBy (i : Instr) (s : State) : List Byte :=
  match i, s.dev with
  | .wrControl v, .present d => if strobeEdge d.control v then [d.dataLatch] else []
  | _, _ => []

/-- The name a flush writes to: the open file, or the one named at this moment (R54, R55). -/
def sinkName (d : DeviceState) (s : State) : FileName := d.outputFile.getD (fileName s.draws.stamp)

/-- The operation ends the job: close, or the timeout fire when it is due (R63, R120, R130). -/
def endsJob (i : Instr) (d : DeviceState) (s : State) : Prop :=
  i = .close ∨ (i = .fireTimeout ∧ d.timeoutDeadline = some s.now)

/-- The number a string of decimal digits writes (R58). -/
def digitsNumber (ds : List Char) : Nat := ds.foldl (fun acc ch => acc * 10 + (ch.toNat - 48)) 0

/-! ## The invariant (R34, R35) -/

/-- What holds of a Present device between steps. -/
structure DeviceState.Inv (d : DeviceState) (s : State) : Prop where
  /-- The storage is in its canonical form. -/
  buf_wf : Memory.wf d.buf
  /-- (I1) -/
  cursor_lt : d.cursor.val < Config.capacity
  /-- (I2) -/
  ack_iff_armed : d.ackPending = d.pulseDeadline.isSome
  /-- (I3), the pulse timer. -/
  pulse_near : ∀ t, d.pulseDeadline = some t → s.now ≤ t ∧ t ≤ s.now + Config.pulseDelay
  /-- (I3), the timeout timer. -/
  timeout_near : ∀ t, d.timeoutDeadline = some t → s.now ≤ t ∧ t ≤ s.now + Config.timeoutDelay
  /-- An open file exists (R59). -/
  file_exists : ∀ n, d.outputFile = some n → (FileSystem.content s.fs n).isSome
  /-- The output trace leaves exactly the open file open (R30, R35, R63). -/
  file_logged : openInLog s.out = d.outputFile
  /-- The listed flags that no operation writes (R28). -/
  inert : d.busy = false ∧ d.interruptPending = false ∧ d.errorFlag = false

/-- What holds of every state of a run: the file system's canonical form, and of the device R34 or R38. -/
structure State.Inv (s : State) : Prop where
  fs_wf : FileSystem.wf s.fs
  device : ∀ d, s.dev = .present d → d.Inv s
  absent : s.dev = .absent → openInLog s.out = none

/-! ## What the host can observe (R37) -/

/-- The handshake part of a device: what the host's view depends on. -/
structure Handshake where
  dataLatch : Byte
  control : Byte
  autofeed : Bool
  selected : Bool
  ackPending : Bool
  pulseDeadline : Option Nat
  timeoutDeadline : Option Nat
  deriving DecidableEq, Repr

/-- The handshake part of the device, none while it is Absent. -/
def Device.handshake : Device → Option Handshake
  | .absent => none
  | .present d =>
    some ⟨d.dataLatch, d.control, d.autofeed, d.selected, d.ackPending, d.pulseDeadline, d.timeoutDeadline⟩

/-- What stands on the host's side of the block: the handshake, the clock, the value read, the interrupts, the mark. The
buffer, the file, the file system and the operator's events are not in it. -/
structure HostView where
  handshake : Option Handshake
  now : Nat
  ret : Option Byte
  irqs : Nat
  refused : Bool
  deriving DecidableEq, Repr

/-- The host's view of a state (R37). -/
def hostView (s : State) : HostView := ⟨s.dev.handshake, s.now, s.ret, irqCount s.out, s.refused⟩

/-- Two steps end alike for the host: both in a next state with the same view, or both with the same stop. -/
def sameForHost : Host.Outcome State Fault Refusal → Host.Outcome State Fault Refusal → Prop
  | .next s, .next t => hostView s = hostView t
  | .fault r, .fault r' => r = r'
  | .refused r, .refused r' => r = r'
  | _, _ => False

end Sys2Proof.Machine
end

