-- ==== Sys2Proof/Certificates/Slice0/Obligations.lean ====
section
/-! DEFINITION. The statements for the provers. Each docstring names the rules of spec/ it formalises. A clause that rests on
a choice of the model says so and names its log entry. -/

open Sys2Proof Sys2Proof.Machine

/-! ## The start of a run, and the parameters -/

/-- R126: a run starts with the device Absent, the clock at 0, nothing emitted, no refusal, and its file-system parameter. -/
def Obligations.RunStartsAbsent : Prop :=
  ∀ (fs : FileSystem) (trace : List Event),
    (State.start fs trace).dev = .absent ∧ (State.start fs trace).now = 0 ∧ (State.start fs trace).out = [] ∧
      (State.start fs trace).refused = false ∧ (State.start fs trace).fs = fs

/-- R8, R9, R10: the bounds the spec sets on the OPEN parameters hold of the constants of Config (log 7). -/
def Obligations.ParameterBoundsHold : Prop :=
  1 ≤ Config.pulseDelay ∧ 1 ≤ Config.timeoutDelay ∧ Config.statusFixed.getLsbD Config.ackBit.val = false

/-! ## Lifecycle -/

/-- R127, R128, R129, R36: init on an Absent device creates the zeroed device, or leaves it Absent when the allocation fails;
the clock, the files, the output trace and the mark stay. -/
def Obligations.InitCreatesZeroedDevice : Prop :=
  ∀ s : State, s.dev = .absent →
    (s.draws.allocOk = true →
      ∃ t d, exec .init s = .next t ∧ t.dev = .present d ∧
        d.dataLatch = 0x00#8 ∧ d.control = 0x00#8 ∧ d.autofeed = false ∧ d.selected = false ∧ d.ackPending = false ∧
        d.busy = false ∧ d.interruptPending = false ∧ d.errorFlag = false ∧
        (∀ a, a < Config.capacity → Memory.read d.buf a = 0x00#8) ∧ d.cursor.val = 0 ∧ d.outputFile = none ∧
        d.pulseDeadline = none ∧ d.timeoutDeadline = none ∧
        t.now = s.now ∧ t.fs = s.fs ∧ t.out = s.out ∧ t.refused = s.refused) ∧
    (s.draws.allocOk = false →
      ∃ t, exec .init s = .next t ∧ t.dev = .absent ∧
        t.now = s.now ∧ t.fs = s.fs ∧ t.out = s.out ∧ t.refused = s.refused)

/-- R135, R136, R137: on an Absent device writes and close do nothing, and every read returns the draw. -/
def Obligations.AbsentDeviceIgnoresHost : Prop :=
  ∀ s : State, s.dev = .absent →
    (∀ v, exec (.wrData v) s = .next { s with ret := none }) ∧
    (∀ v, exec (.wrControl v) s = .next { s with ret := none }) ∧
    (∃ r, exec .close s = .next { s with ret := r }) ∧
    exec .rdData s = .next { s with ret := some s.draws.rdVal } ∧
    exec .rdStatus s = .next { s with ret := some s.draws.rdVal } ∧
    exec .rdControl s = .next { s with ret := some s.draws.rdVal }

/-- R130: close makes a Present device Absent, in zero time and without an interrupt, whatever stands in the buffer. -/
def Obligations.CloseReleasesDevice : Prop :=
  ∀ (s : State) (d : DeviceState), s.dev = .present d →
    ∃ t, exec .close s = .next t ∧ t.dev = .absent ∧ t.now = s.now ∧ t.refused = s.refused ∧
      irqCount t.out = irqCount s.out ∧ (openInLog s.out = d.outputFile → openInLog t.out = none)

/-! ## Reads and the DATA write -/

/-- R88: writeData latches the byte and does nothing else. -/
def Obligations.WriteDataOnlyLatches : Prop :=
  ∀ (s : State) (d : DeviceState) (v : Byte), s.dev = .present d →
    exec (.wrData v) s = .next { s with dev := .present { d with dataLatch := v }, ret := none }

/-- R103, R104, R105: the reads on a Present device return the status byte or the draw, and change nothing else. -/
def Obligations.ReadsOnPresentDevice : Prop :=
  ∀ (s : State) (d : DeviceState), s.dev = .present d →
    exec .rdStatus s = .next { s with
      ret := some (Config.statusFixed ||| (if d.ackPending then 0x00#8 else 1#8 <<< Config.ackBit.val)) } ∧
    exec .rdData s = .next { s with ret := some s.draws.rdVal } ∧
    exec .rdControl s = .next { s with ret := some s.draws.rdVal }

/-- R24: bit by bit, STATUS shows the acknowledge active-low at ACK_BIT and STATUS_FIXED everywhere else. -/
def Obligations.StatusBitsOfRead : Prop :=
  ∀ (s : State) (d : DeviceState), s.dev = .present d →
    ∃ b t, exec .rdStatus s = .next t ∧ t.ret = some b ∧
      ∀ i : Fin 8, b.getLsbD i.val =
        if i = Config.ackBit then !d.ackPending else Config.statusFixed.getLsbD i.val

/-- R43: a repeated STATUS read, DATA write or CONTROL write adds nothing, but that a CONTROL write re-asserts `selected`
when bit 3 is 1. -/
def Obligations.RepeatedAccessAddsNothing : Prop :=
  (∀ (s t : State), (∃ d, s.dev = .present d) → exec .rdStatus s = .next t → exec .rdStatus t = .next t) ∧
  (∀ (s t : State) (v : Byte), (∃ d, s.dev = .present d) →
    exec (.wrData v) s = .next t → exec (.wrData v) t = .next t) ∧
  (∀ (s t : State) (v : Byte) (d' : DeviceState), exec (.wrControl v) s = .next t → t.dev = .present d' →
    exec (.wrControl v) t = .next { t with dev := .present { d' with selected := d'.selected || bit v 3 } })

/-! ## The CONTROL write -/

/-- R96, R100: a write that makes neither edge copies bit 1 into autofeed, sets selected when bit 3 is 1, stores the byte, and
does nothing else. -/
def Obligations.ControlWriteWithoutEdge : Prop :=
  ∀ (s : State) (d : DeviceState) (v : Byte), s.dev = .present d →
    (bit v 2 = true → bit d.control 2 = true) → (bit d.control 0 = true → bit v 0 = true) →
    exec (.wrControl v) s = .next { s with
      dev := .present { d with autofeed := bit v 1, selected := if bit v 3 then true else d.selected, control := v },
      ret := none }

/-- R92, R93, R98, R100 as far as `autofeed`, `selected` and `control` go: what every CONTROL write of a Present device leaves
in them. -/
def Obligations.ControlWriteFlags : Prop :=
  ∀ (s t : State) (d d' : DeviceState) (v : Byte), s.dev = .present d → exec (.wrControl v) s = .next t →
    t.dev = .present d' →
      d'.control = v ∧ d'.autofeed = bit v 1 ∧
      d'.selected = (if bit v 2 && !bit d.control 2 then false else if bit v 3 then true else d.selected)

/-- R94: bits 7 to 4 of the written byte reach `control` and nothing else. -/
def Obligations.UpperControlBitsOnlyStored : Prop :=
  ∀ (s t : State) (d d' : DeviceState) (v v' : Byte), s.dev = .present d →
    (∀ i, i < 4 → bit v i = bit v' i) → exec (.wrControl v) s = .next t → t.dev = .present d' →
      exec (.wrControl v') s = .next { t with dev := .present { d' with control := v' } }

/-- R164, R165: a RESET edge without a STROBE edge. -/
def Obligations.ResetEdgeCancelsHandshake : Prop :=
  ∀ (s : State) (d : DeviceState) (v : Byte), s.dev = .present d →
    bit v 2 = true → bit d.control 2 = false → (bit d.control 0 = true → bit v 0 = true) →
    exec (.wrControl v) s = .next { s with
      dev := .present { d with autofeed := bit v 1, selected := false, ackPending := false, pulseDeadline := none,
                               timeoutDeadline := none, control := v },
      ret := none }

/-- R99, R101 where the buffer does not become full: a STROBE edge without a RESET edge appends the latch, starts the ACK and
arms both timers, whatever they were (R107, R117). -/
def Obligations.StrobeAcceptsLatchedByte : Prop :=
  ∀ (s : State) (d : DeviceState) (v : Byte), s.dev = .present d → Memory.wf d.buf →
    bit v 0 = false → bit d.control 0 = true → (bit v 2 = true → bit d.control 2 = true) →
    d.cursor.val + 1 < Config.capacity →
    ∃ d', exec (.wrControl v) s = .next { s with dev := .present d', ret := none } ∧
      d'.cursor.val = d.cursor.val + 1 ∧
      (∀ a, Memory.read d'.buf a = if a = d.cursor.val then d.dataLatch else Memory.read d.buf a) ∧
      d' = { d with buf := d'.buf, cursor := d'.cursor, autofeed := bit v 1,
                    selected := if bit v 3 then true else d.selected, ackPending := true,
                    pulseDeadline := some (s.now + Config.pulseDelay),
                    timeoutDeadline := some (s.now + Config.timeoutDelay), control := v }

/-- R97: a write that makes both edges ends as the plain strobe does (the same write, had bit 2 been 1 before it), but that
`selected` is false. -/
def Obligations.ResetAndStrobeInOneWrite : Prop :=
  ∀ (s : State) (d : DeviceState) (v : Byte), s.dev = .present d →
    bit v 2 = true → bit d.control 2 = false → bit v 0 = false → bit d.control 0 = true →
    d.cursor.val < Config.capacity →
    ∃ t d', exec (.wrControl v) { s with dev := .present { d with control := d.control ||| 0x04#8 } } = .next t ∧
      t.dev = .present d' ∧
      exec (.wrControl v) s = .next { t with dev := .present { d' with selected := false } }

/-! ## The buffer-full flush -/

/-- R48, R54: the byte that fills the buffer, with a file open: one SinkWrite of all 4096 bytes to it, and the file stays
open. -/
def Obligations.BufferFullWritesOpenFile : Prop :=
  ∀ (s : State) (d : DeviceState) (v : Byte) (n : FileName) (c : List Byte), s.dev = .present d → Memory.wf d.buf →
    FileSystem.wf s.fs → bit v 0 = false → bit d.control 0 = true → d.cursor.val + 1 = Config.capacity →
    d.outputFile = some n → FileSystem.content s.fs n = some c →
    ∃ t d', exec (.wrControl v) s = .next t ∧ t.dev = .present d' ∧
      (bufferedBytes d ++ [d.dataLatch]).length = Config.capacity ∧
      t.out = s.out ++ [.sinkWrite (bufferedBytes d ++ [d.dataLatch])] ∧
      FileSystem.content t.fs n = some (c ++ (bufferedBytes d ++ [d.dataLatch])) ∧
      (∀ m, m ≠ n → FileSystem.content t.fs m = FileSystem.content s.fs m) ∧
      d'.cursor.val = 0 ∧ d'.outputFile = some n ∧ d'.ackPending = true ∧
      d'.pulseDeadline = some (s.now + Config.pulseDelay) ∧ d'.timeoutDeadline = some (s.now + Config.timeoutDelay)

/-- R48, R55, R58, R59: the byte that fills the buffer, with no file open and an open that succeeds: the file named by the
draw is opened, keeping what it held, and written. -/
def Obligations.BufferFullOpensFile : Prop :=
  ∀ (s : State) (d : DeviceState) (v : Byte), s.dev = .present d → Memory.wf d.buf →
    FileSystem.wf s.fs → bit v 0 = false → bit d.control 0 = true → d.cursor.val + 1 = Config.capacity →
    d.outputFile = none → s.draws.openOk = true →
    ∃ t d', exec (.wrControl v) s = .next t ∧ t.dev = .present d' ∧
      t.out = s.out ++ [.sinkOpen (fileName s.draws.stamp), .sinkWrite (bufferedBytes d ++ [d.dataLatch])] ∧
      FileSystem.content t.fs (fileName s.draws.stamp) =
        some ((FileSystem.content s.fs (fileName s.draws.stamp)).getD [] ++ (bufferedBytes d ++ [d.dataLatch])) ∧
      (∀ m, m ≠ fileName s.draws.stamp → FileSystem.content t.fs m = FileSystem.content s.fs m) ∧
      d'.cursor.val = 0 ∧ d'.outputFile = some (fileName s.draws.stamp) ∧ d'.ackPending = true ∧
      d'.pulseDeadline = some (s.now + Config.pulseDelay) ∧ d'.timeoutDeadline = some (s.now + Config.timeoutDelay)

/-- R56, R108: the byte that fills the buffer, with no file open and an open that fails: every buffered byte is dropped, only
the diagnostic is emitted, and the handshake goes on as ever. -/
def Obligations.BufferFullFailedOpen : Prop :=
  ∀ (s : State) (d : DeviceState) (v : Byte), s.dev = .present d →
    bit v 0 = false → bit d.control 0 = true → d.cursor.val + 1 = Config.capacity →
    d.outputFile = none → s.draws.openOk = false →
    ∃ t d', exec (.wrControl v) s = .next t ∧ t.dev = .present d' ∧
      t.out = s.out ++ [.diag .openFailed] ∧ t.fs = s.fs ∧
      d'.cursor.val = 0 ∧ d'.outputFile = none ∧ d'.ackPending = true ∧
      d'.pulseDeadline = some (s.now + Config.pulseDelay) ∧ d'.timeoutDeadline = some (s.now + Config.timeoutDelay)

/-- R72 for bytes sent one after the other: 4096 of them from an empty buffer make exactly one flush, during the last `send`;
the file is open afterwards unless its open failed. -/
def Obligations.CapacityBytesFlushOnce : Prop :=
  ∀ (s : State) (d : DeviceState) (c : Byte) (bs : List Byte), s.dev = .present d → Memory.wf d.buf →
    d.cursor.val = 0 → bs.length = Config.capacity →
    (∃ u, execAll (bs.dropLast.flatMap fun b => send b c) s = .next u ∧ u.out = s.out) ∧
    ∃ t d', execAll (bs.flatMap fun b => send b c) s = .next t ∧ t.dev = .present d' ∧ d'.cursor.val = 0 ∧
      (∀ n, d.outputFile = some n → t.out = s.out ++ [.sinkWrite bs] ∧ d'.outputFile = some n) ∧
      (d.outputFile = none → s.draws.openOk = true →
        t.out = s.out ++ [.sinkOpen (fileName s.draws.stamp), .sinkWrite bs] ∧
          d'.outputFile = some (fileName s.draws.stamp)) ∧
      (d.outputFile = none → s.draws.openOk = false →
        t.out = s.out ++ [.diag .openFailed] ∧ d'.outputFile = none)

/-! ## The end of a job -/

/-- R54, R60, R61, R153: bytes buffered and a file open: they are appended to it, and it is closed. -/
def Obligations.JobEndWritesOpenFile : Prop :=
  ∀ (i : Instr) (s : State) (d : DeviceState) (n : FileName) (c : List Byte), s.dev = .present d → endsJob i d s →
    FileSystem.wf s.fs → d.cursor.val ≠ 0 → d.outputFile = some n → FileSystem.content s.fs n = some c →
    ∃ t, exec i s = .next t ∧ t.out = s.out ++ [.sinkWrite (bufferedBytes d), .sinkClose n] ∧
      FileSystem.content t.fs n = some (c ++ bufferedBytes d) ∧
      (∀ m, m ≠ n → FileSystem.content t.fs m = FileSystem.content s.fs m)

/-- R55, R59, R62, R131, R153: bytes buffered, no file open and an open that succeeds: the file is opened, written after what
it held, and closed. -/
def Obligations.JobEndOpensFileLazily : Prop :=
  ∀ (i : Instr) (s : State) (d : DeviceState), s.dev = .present d → endsJob i d s →
    FileSystem.wf s.fs → d.cursor.val ≠ 0 → d.outputFile = none → s.draws.openOk = true →
    ∃ t, exec i s = .next t ∧
      t.out = s.out ++ [.sinkOpen (fileName s.draws.stamp), .sinkWrite (bufferedBytes d),
                        .sinkClose (fileName s.draws.stamp)] ∧
      FileSystem.content t.fs (fileName s.draws.stamp) =
        some ((FileSystem.content s.fs (fileName s.draws.stamp)).getD [] ++ bufferedBytes d) ∧
      (∀ m, m ≠ fileName s.draws.stamp → FileSystem.content t.fs m = FileSystem.content s.fs m)

/-- R56 at the end of a job: no file open and an open that fails: the bytes are dropped, only the diagnostic is emitted, and
nothing is closed. -/
def Obligations.JobEndFailedOpenDropsBytes : Prop :=
  ∀ (i : Instr) (s : State) (d : DeviceState), s.dev = .present d → endsJob i d s →
    d.cursor.val ≠ 0 → d.outputFile = none → s.draws.openOk = false →
    ∃ t, exec i s = .next t ∧ t.out = s.out ++ [.diag .openFailed] ∧ t.fs = s.fs ∧ t.dev.buffered = []

/-- R53, R132: nothing buffered: no file is opened or written; an open file is closed, and with none open nothing is
emitted. -/
def Obligations.JobEndWithEmptyBuffer : Prop :=
  ∀ (i : Instr) (s : State) (d : DeviceState), s.dev = .present d → endsJob i d s → d.cursor.val = 0 →
    ∃ t, exec i s = .next t ∧ t.fs = s.fs ∧
      (∀ n, d.outputFile = some n → t.out = s.out ++ [.sinkClose n]) ∧ (d.outputFile = none → t.out = s.out)

/-- R120 as far as the device goes: the timeout fire leaves an empty buffer, no open file and a disarmed timeout timer, and
touches nothing else of the device. -/
def Obligations.TimeoutFireDevice : Prop :=
  ∀ (s : State) (d : DeviceState), s.dev = .present d → d.timeoutDeadline = some s.now →
    ∃ t, exec .fireTimeout s = .next t ∧
      t.dev = .present { d with cursor := 0, outputFile := none, timeoutDeadline := none } ∧ t.now = s.now

/-! ## The clock and the timers -/

/-- R114, R115: ADVANCE moves the clock, and nothing else, where it passes no armed deadline; else it is stuck. The value it
returns is left open here (log 4). -/
def Obligations.AdvanceUpToDeadlines : Prop :=
  ∀ (s : State) (delta : Nat),
    ((∀ d x, s.dev = .present d → (d.pulseDeadline = some x ∨ d.timeoutDeadline = some x) → s.now + delta ≤ x) →
      ∃ r, exec (.advance delta) s = .next { s with now := s.now + delta, ret := r }) ∧
    ((∃ d x, s.dev = .present d ∧ (d.pulseDeadline = some x ∨ d.timeoutDeadline = some x) ∧ x < s.now + delta) →
      exec (.advance delta) s = .fault .pastDeadline)

/-- R116: while a timer is due no ADVANCE of a tick or more is enabled, and every register operation and close is. -/
def Obligations.DueTimerBlocksOnlyTime : Prop :=
  ∀ (s : State) (d : DeviceState), s.Inv → s.dev = .present d →
    (d.pulseDeadline = some s.now ∨ d.timeoutDeadline = some s.now) →
    (∀ delta, 0 < delta → exec (.advance delta) s = .fault .pastDeadline) ∧
    (∀ v, ∃ t, exec (.wrControl v) s = .next t) ∧ (∀ v, ∃ t, exec (.wrData v) s = .next t) ∧
    (∃ t, exec .rdStatus s = .next t) ∧ (∃ t, exec .rdData s = .next t) ∧ (∃ t, exec .rdControl s = .next t) ∧
    (∃ t, exec .close s = .next t)

/-- R119: a due pulse timer, when it fires, ends a pending ACK with one Irq, disarms itself, and does nothing else. -/
def Obligations.PulseFireEndsAck : Prop :=
  ∀ (s : State) (d : DeviceState), s.dev = .present d → d.pulseDeadline = some s.now →
    ∃ r, exec .firePulse s = .next { s with
      dev := .present { d with ackPending := false, pulseDeadline := none },
      out := if d.ackPending then s.out ++ [.irq] else s.out,
      ret := r }

/-- R119, R120, R125: a timer fire is stuck when the device is Absent or the timer is not due. -/
def Obligations.FireStuckUnlessDue : Prop :=
  ∀ s : State,
    ((∀ d, s.dev = .present d → d.pulseDeadline ≠ some s.now) → exec .firePulse s = .fault .pulseNotDue) ∧
    ((∀ d, s.dev = .present d → d.timeoutDeadline ≠ some s.now) → exec .fireTimeout s = .fault .timeoutNotDue)

/-- R121: a STROBE edge at the instant the timeout is due. Before the fire it joins the job, whose end moves out; after the
fire it starts a new one. -/
def Obligations.StrobeAtTimeoutEitherOrder : Prop :=
  ∀ (s : State) (d : DeviceState) (v : Byte), s.dev = .present d → Memory.wf d.buf →
    d.timeoutDeadline = some s.now → bit v 0 = false → bit d.control 0 = true → d.cursor.val + 1 < Config.capacity →
    (∃ t d', exec (.wrControl v) s = .next t ∧ t.dev = .present d' ∧ t.out = s.out ∧
      bufferedBytes d' = bufferedBytes d ++ [d.dataLatch] ∧
      d'.timeoutDeadline = some (s.now + Config.timeoutDelay) ∧ exec .fireTimeout t = .fault .timeoutNotDue) ∧
    (∃ t u d', exec .fireTimeout s = .next t ∧ exec (.wrControl v) t = .next u ∧ u.dev = .present d' ∧ u.out = t.out ∧
      bufferedBytes d' = [d.dataLatch] ∧ d'.outputFile = none ∧
      d'.timeoutDeadline = some (s.now + Config.timeoutDelay))

/-- R122: with both timers due, the two fires end in the same state in either order, but for the order of the output. -/
def Obligations.TimerFiresCommute : Prop :=
  ∀ (s : State) (d : DeviceState), s.dev = .present d → d.pulseDeadline = some s.now →
    d.timeoutDeadline = some s.now →
    ∃ p pt t tp, exec .firePulse s = .next p ∧ exec .fireTimeout p = .next pt ∧
      exec .fireTimeout s = .next t ∧ exec .firePulse t = .next tp ∧
      tp = { pt with out := tp.out } ∧ tp.out.Perm pt.out

/-! ## Rules of the whole machine -/

/-- R109, R110: only ADVANCE changes the clock, and no step moves it back. -/
def Obligations.OnlyAdvanceMovesClock : Prop :=
  (∀ (i : Instr) (s t : State), exec i s = .next t →
    t.now = s.now + (match i with | .advance delta => delta | _ => 0)) ∧
  (∀ s t : State, step s = .next t → s.now ≤ t.now)

/-- R148: the one source of Irq is the pulse fire while an ACK is pending; each such fire emits one. -/
def Obligations.OnlyPulseFireEmitsIrq : Prop :=
  ∀ (i : Instr) (s t : State), exec i s = .next t →
    irqCount t.out = irqCount s.out +
      (match i, s.dev with | .firePulse, .present d => if d.ackPending then 1 else 0 | _, _ => 0)

/-- R153: what one operation can append to the output trace, in order; nothing already there changes (R15). -/
def Obligations.OutputOrderOfOneStep : Prop :=
  ∀ (i : Instr) (s t : State), exec i s = .next t →
    ∃ es, t.out = s.out ++ es ∧
      match i with
      | .firePulse => es = [] ∨ es = [.irq]
      | .wrControl _ =>
        es = [] ∨ (∃ b, es = [.sinkWrite b]) ∨ (∃ n b, es = [.sinkOpen n, .sinkWrite b]) ∨ es = [.diag .openFailed]
      | .fireTimeout | .close =>
        es = [] ∨ (∃ n, es = [.sinkClose n]) ∨ (∃ n b, es = [.sinkWrite b, .sinkClose n]) ∨
          (∃ n b, es = [.sinkOpen n, .sinkWrite b, .sinkClose n]) ∨ es = [.diag .openFailed]
      | .rdData | .rdStatus | .rdControl | .wrData _ | .init | .advance _ => es = []

/-- R157: only a STROBE edge arms the timers, from now, and only the own fire, a RESET edge and close disarm them. -/
def Obligations.TimersArmedAndDisarmedOnlyBy : Prop :=
  ∀ (i : Instr) (s t : State) (d' : DeviceState), exec i s = .next t → t.dev = .present d' →
    (∀ x, d'.pulseDeadline = some x → (∃ d, s.dev = .present d ∧ d.pulseDeadline = some x) ∨
      (∃ v d, i = .wrControl v ∧ s.dev = .present d ∧ strobeEdge d.control v = true ∧ x = s.now + Config.pulseDelay)) ∧
    (∀ x, d'.timeoutDeadline = some x → (∃ d, s.dev = .present d ∧ d.timeoutDeadline = some x) ∨
      (∃ v d, i = .wrControl v ∧ s.dev = .present d ∧ strobeEdge d.control v = true ∧
        x = s.now + Config.timeoutDelay)) ∧
    (∀ d, s.dev = .present d → d.pulseDeadline ≠ none → d'.pulseDeadline = none →
      i = .firePulse ∨ ∃ v, i = .wrControl v ∧ resetEdge d.control v = true) ∧
    (∀ d, s.dev = .present d → d.timeoutDeadline ≠ none → d'.timeoutDeadline = none →
      i = .fireTimeout ∨ ∃ v, i = .wrControl v ∧ resetEdge d.control v = true)

/-- R27: only AcceptByte sets `ackPending`, and only the pulse fire and Reset clear it while the device is Present. -/
def Obligations.AckPendingSetAndClearedOnlyBy : Prop :=
  ∀ (i : Instr) (s t : State) (d d' : DeviceState), exec i s = .next t → s.dev = .present d → t.dev = .present d' →
    (d.ackPending = false → d'.ackPending = true → ∃ v, i = .wrControl v ∧ strobeEdge d.control v = true) ∧
    (d.ackPending = true → d'.ackPending = false →
      i = .firePulse ∨ ∃ v, i = .wrControl v ∧ resetEdge d.control v = true ∧ strobeEdge d.control v = false)

/-- R30, R63: while the device is Present, an open file stays open until the timeout fire, and a file is opened only by the
flush of a full buffer, under the name of that moment (the other opens are closed in the same step). -/
def Obligations.OpenFileLifetime : Prop :=
  ∀ (i : Instr) (s t : State) (d d' : DeviceState) (n : FileName), exec i s = .next t → s.dev = .present d →
    t.dev = .present d' →
    (d.outputFile = some n → d'.outputFile = some n ∨ i = .fireTimeout) ∧
    (d.outputFile = none → d'.outputFile = some n →
      s.draws.openOk = true ∧ n = fileName s.draws.stamp ∧ d.cursor.val + 1 = Config.capacity ∧
        ∃ v, i = .wrControl v ∧ strobeEdge d.control v = true)

/-- R16, R81, R134, R147: the mark is set by a reserved word and by init on a Present device, by nothing else, and stays. A
refused event as a next state is the model's choice (log 3). -/
def Obligations.RefusalMarkSetOnlyByRefusals : Prop :=
  ∀ (s t : State) (e : Event) (rest : List Event), s.trace = e :: rest → step s = .next t →
    (t.refused = true ↔ s.refused = true ∨ (∃ r, decodeWord e.word = .error r) ∨
      (decodeWord e.word = .ok .init ∧ s.dev ≠ .absent))

/-- R140, R142, R143: what the three errors do. A failed allocation leaves the device Absent; a failed open emits one
diagnostic, drops the buffer and changes no file; a null handle changes nothing but the value returned; and no diagnostic is
emitted otherwise. -/
def Obligations.ErrorEffects : Prop :=
  ∀ (i : Instr) (s t : State), exec i s = .next t →
    (errorOf i s = some .allocFailed → t.dev = .absent ∧ t.out = s.out) ∧
    (errorOf i s = some .openFailed → t.fs = s.fs ∧ t.dev.buffered = []) ∧
    (errorOf i s = some .nullHandle → t = { s with ret := t.ret }) ∧
    failedOpens t.out = failedOpens s.out + (if errorOf i s = some .openFailed then 1 else 0)

/-! ## Frames -/

/-- Frame of the reads and the DATA write (R42, R88, R103, R104, R105): nothing but the value returned, and for a DATA write
the latch, changes. -/
def Obligations.FrameReadsAndDataWrite : Prop :=
  ∀ (i : Instr) (s t : State), (i = .rdData ∨ i = .rdStatus ∨ i = .rdControl ∨ ∃ v, i = .wrData v) →
    exec i s = .next t →
    t.now = s.now ∧ t.out = s.out ∧ t.refused = s.refused ∧ t.draws = s.draws ∧ t.trace = s.trace ∧
    (∀ m, FileSystem.content t.fs m = FileSystem.content s.fs m) ∧ (s.dev = .absent → t.dev = .absent) ∧
    (∀ d, s.dev = .present d → ∃ d', t.dev = .present d' ∧
      (∀ a, Memory.read d'.buf a = Memory.read d.buf a) ∧
      d' = { d with buf := d'.buf, dataLatch := match i with | .wrData v => v | _ => d.dataLatch })

/-- Frame of the CONTROL write (R42, R89): it leaves the latch, the inert flags, the clock, the mark and the inputs; it stores
to `buf` at the cursor alone, and there only at a STROBE edge; files, output and open file change only when that byte fills
the buffer, and then only the file written. -/
def Obligations.FrameControlWrite : Prop :=
  ∀ (s t : State) (v : Byte), exec (.wrControl v) s = .next t →
    t.now = s.now ∧ t.refused = s.refused ∧ t.draws = s.draws ∧ t.trace = s.trace ∧
    (s.dev = .absent → t.dev = .absent ∧ t.out = s.out ∧ t.fs = s.fs) ∧
    (∀ d, s.dev = .present d → Memory.wf d.buf → FileSystem.wf s.fs → ∃ d', t.dev = .present d' ∧
      d'.dataLatch = d.dataLatch ∧ d'.busy = d.busy ∧ d'.interruptPending = d.interruptPending ∧
      d'.errorFlag = d.errorFlag ∧
      (∀ a, a ≠ d.cursor.val → Memory.read d'.buf a = Memory.read d.buf a) ∧
      (strobeEdge d.control v = false → d'.cursor = d.cursor ∧ ∀ a, Memory.read d'.buf a = Memory.read d.buf a) ∧
      (strobeEdge d.control v = false ∨ d.cursor.val + 1 ≠ Config.capacity →
        d'.outputFile = d.outputFile ∧ t.out = s.out ∧ ∀ m, FileSystem.content t.fs m = FileSystem.content s.fs m) ∧
      (strobeEdge d.control v = false → resetEdge d.control v = false →
        d'.ackPending = d.ackPending ∧ d'.pulseDeadline = d.pulseDeadline ∧ d'.timeoutDeadline = d.timeoutDeadline) ∧
      (∀ m, m ≠ sinkName d s → FileSystem.content t.fs m = FileSystem.content s.fs m))

/-- Frame of the timer fires (R119, R120, R122): what each leaves alone. -/
def Obligations.FrameTimerFires : Prop :=
  ∀ (i : Instr) (s t : State) (d : DeviceState), (i = .firePulse ∨ i = .fireTimeout) → exec i s = .next t →
    s.dev = .present d → FileSystem.wf s.fs →
    t.now = s.now ∧ t.refused = s.refused ∧ t.draws = s.draws ∧ t.trace = s.trace ∧
    (∀ m, m ≠ sinkName d s → FileSystem.content t.fs m = FileSystem.content s.fs m) ∧
    (i = .firePulse → ∀ m, FileSystem.content t.fs m = FileSystem.content s.fs m) ∧
    ∃ d', t.dev = .present d' ∧ (∀ a, Memory.read d'.buf a = Memory.read d.buf a) ∧
      (i = .firePulse →
        d' = { d with buf := d'.buf, ackPending := d'.ackPending, pulseDeadline := d'.pulseDeadline }) ∧
      (i = .fireTimeout →
        d' = { d with buf := d'.buf, cursor := d'.cursor, outputFile := d'.outputFile,
                      timeoutDeadline := d'.timeoutDeadline })

/-- Frame of ADVANCE, INIT and CLOSE (R114, R127, R130, R139): the inputs stay; ADVANCE changes only the clock, INIT only the
device and the mark, CLOSE only the device, the output and the file it writes. -/
def Obligations.FrameAdvanceInitClose : Prop :=
  ∀ (i : Instr) (s t : State), (i = .init ∨ i = .close ∨ ∃ delta, i = .advance delta) → exec i s = .next t →
    FileSystem.wf s.fs →
    t.draws = s.draws ∧ t.trace = s.trace ∧ (i ≠ .init → t.refused = s.refused) ∧
    (i = .init ∨ i = .close → t.now = s.now) ∧ (i ≠ .close → t.out = s.out ∧ t.fs = s.fs) ∧
    ((∃ delta, i = .advance delta) → t.dev = s.dev) ∧ (i = .init → s.dev ≠ .absent → t.dev = s.dev) ∧
    (i = .close → ∀ m, (∀ d, s.dev = .present d → m ≠ sinkName d s) →
      FileSystem.content t.fs m = FileSystem.content s.fs m)

/-! ## The data path -/

/-- R70, R71: in every operation the bytes written, followed by the bytes still buffered, grow by exactly the byte accepted,
in order, unless an open fails; a failed open writes nothing and leaves nothing buffered. -/
def Obligations.StreamConserved : Prop :=
  ∀ (i : Instr) (s t : State), s.Inv → exec i s = .next t →
    (failedOpens t.out = failedOpens s.out →
      written t.out ++ t.dev.buffered = written s.out ++ s.dev.buffered ++ acceptedBy i s) ∧
    (failedOpens t.out ≠ failedOpens s.out → written t.out = written s.out ∧ t.dev.buffered = [])

/-- R59, R60, R61, R139: every file's content grows by exactly the SinkWrite payloads emitted to it in the operation, and no
file vanishes. -/
def Obligations.FilesGrowByPayloads : Prop :=
  ∀ (i : Instr) (s t : State), s.Inv → exec i s = .next t →
    ∃ es, t.out = s.out ++ es ∧
      ∀ m, (FileSystem.content t.fs m).getD [] = (FileSystem.content s.fs m).getD [] ++
          (match s.dev with | .absent => [] | .present d => if m = sinkName d s then written es else []) ∧
        ((FileSystem.content s.fs m).isSome → (FileSystem.content t.fs m).isSome)

/-- R108, R173, R37: the host cannot tell what became of the data. Two states that look alike to the host and get the same
allocation and read draws still do after any operation, whatever their buffers, files and opens. -/
def Obligations.HostCannotSeeDataPath : Prop :=
  ∀ (i : Instr) (s t : State),
    (∀ d, s.dev = .present d → d.cursor.val < Config.capacity) →
    (∀ d, t.dev = .present d → d.cursor.val < Config.capacity) →
    hostView s = hostView t → s.draws.allocOk = t.draws.allocOk → s.draws.rdVal = t.draws.rdVal →
    sameForHost (exec i s) (exec i t)

/-! ## The invariant -/

/-- R34, R35, R38: every step keeps the invariant. -/
def Obligations.StepKeepsInvariant : Prop :=
  ∀ s t : State, s.Inv → step s = .next t → t.Inv

/-- The invariant holds at the start of every run whose file-system parameter is in canonical form, and at reset. -/
def Obligations.RunStartMeetsInvariant : Prop :=
  (∀ fs trace, FileSystem.wf fs → (State.start fs trace).Inv) ∧ State.reset.Inv

/-- R48: the buffer never refuses a byte: from a state that meets the invariant no step ends in the fault of a full buffer. -/
def Obligations.BufferNeverRefusesByte : Prop :=
  ∀ s : State, s.Inv → step s ≠ .fault .bufferFull

/-! ## Events and their words -/

/-- A step takes the head event of the trace with its draws and executes the operation its word spells. -/
def Obligations.StepExecutesDecodedEvent : Prop :=
  ∀ (s : State) (e : Event) (rest : List Event) (i : Instr), s.trace = e :: rest → decodeWord e.word = .ok i →
    step s = exec i { s with draws := e.draws, trace := rest }

/-- A refused event, a reserved word (R81) or init on a Present device (R134), only sets the mark. That this is a next state,
and returns nothing, are the model's choices (log 3, log 4). -/
def Obligations.RefusedEventOnlySetsMark : Prop :=
  (∀ (s : State) (e : Event) (rest : List Event) (r : Reserved), s.trace = e :: rest → decodeWord e.word = .error r →
    step s = .next { s with draws := e.draws, trace := rest, refused := true, ret := none }) ∧
  (∀ (s : State) (d : DeviceState), s.dev = .present d →
    exec .init s = .next { s with refused := true, ret := none })

/-- Words of the opcode map and reserved words, from the spec's own decoder vectors (95_test_vectors 2.1). -/
def Obligations.SampleWordsDecode : Prop :=
  decodeTableWord 16 0x0000 = some .rdData ∧ decodeTableWord 16 0x0100 = some .rdStatus ∧
  decodeTableWord 16 0x0200 = some .rdControl ∧ decodeTableWord 16 0x40FF = some (.wrData 0xFF#8) ∧
  decodeTableWord 16 0x42A5 = some (.wrControl 0xA5#8) ∧ decodeTableWord 16 0x8000 = some .init ∧
  decodeTableWord 16 0x8100 = some .close ∧ decodeTableWord 16 0x8200 = some .firePulse ∧
  decodeTableWord 16 0x8300 = some .fireTimeout ∧ decodeTableWord 16 0xC3DE = some (.advance 990) ∧
  decodeTableWord 16 0xFFFF = some (.advance 16383) ∧ decodeTableWord 16 0x4100 = none ∧
  decodeTableWord 16 0x7E41 = none ∧ decodeTableWord 16 0x8001 = none

/-- Decoding the word of a well-formed operation gives the operation back. -/
def Obligations.DecodeOfEncode : Prop :=
  ∀ i : Instr, i.wellFormed = true → decodeWord (encode i) = .ok i

/-- A legal word is the word of the operation it decodes to, which is well-formed: no two words spell one operation. -/
def Obligations.EncodeOfDecode : Prop :=
  ∀ (w : Word) (i : Instr), decodeWord w = .ok i → encode i = w ∧ i.wellFormed = true

/-- R79, R80: the decoder finds the row of the opcode map that the word selects, every word selects at most one, and a word
that selects none is reserved. -/
def Obligations.DecoderFollowsOpcodeMap : Prop :=
  ∀ w : Word,
    (opcodeMap.filter (·.selects w)).map (·.mnemonic) =
      match decodeWord w with
      | .ok i => [i.mnemonic]
      | .error _ => []

/-- R81: the reserved words are exactly the classes (a) to (e), with K, A and D as numbers. -/
def Obligations.ReservedWordClasses : Prop :=
  ∀ w : Word, (∃ r, decodeWord w = .error r) ↔
    let k := w.toNat / 16384
    let z := w.toNat / 1024 % 16
    let a := w.toNat / 256 % 4
    let v := w.toNat % 256
    (k ≠ 3 ∧ z ≠ 0) ∨ (k = 0 ∧ (a = 3 ∨ v ≠ 0)) ∨ (k = 1 ∧ a = 1) ∨ (k = 1 ∧ a = 3) ∨ (k = 2 ∧ v ≠ 0)

/-! ## Assembler and names -/

/-- R85 `send`, R169: the expansion accepts exactly the byte, after those buffered, and starts its ACK. -/
def Obligations.SendAcceptsByte : Prop :=
  ∀ (s : State) (d : DeviceState) (b c : Byte), s.dev = .present d → Memory.wf d.buf →
    d.cursor.val + 1 < Config.capacity →
    ∃ t d', execAll (send b c) s = .next t ∧ t.dev = .present d' ∧ d'.cursor.val = d.cursor.val + 1 ∧
      bufferedBytes d' = bufferedBytes d ++ [b] ∧ d'.ackPending = true ∧
      d'.pulseDeadline = some (s.now + Config.pulseDelay) ∧
      d'.timeoutDeadline = some (s.now + Config.timeoutDelay) ∧ t.out = s.out ∧ t.fs = s.fs ∧ t.now = s.now

/-- R85 `reset` and `ack`: `reset c` after a byte with bit 0 clear resets the handshake and keeps the job; `ack` in the
instant of the strobe ends the pulse with one Irq, PULSE_DELAY later, where the timeout is not due before. -/
def Obligations.ResetAndAckExpansions : Prop :=
  (∀ (s : State) (d : DeviceState) (c : Byte), s.dev = .present d → bit d.control 0 = false →
    ∃ t d', execAll (resetPulse c) s = .next t ∧ t.dev = .present d' ∧ d'.ackPending = false ∧ d'.selected = false ∧
      d'.pulseDeadline = none ∧ d'.timeoutDeadline = none ∧ bufferedBytes d' = bufferedBytes d ∧
      d'.outputFile = d.outputFile ∧ t.out = s.out ∧ t.fs = s.fs ∧ t.now = s.now) ∧
  (∀ (s : State) (d : DeviceState), s.dev = .present d → d.ackPending = true →
    d.pulseDeadline = some (s.now + Config.pulseDelay) →
    (∀ x, d.timeoutDeadline = some x → s.now + Config.pulseDelay ≤ x) →
    ∃ t, execAll ackPulse s = .next t ∧ t.now = s.now + Config.pulseDelay ∧ t.out = s.out ++ [.irq] ∧
      t.dev = .present { d with ackPending := false, pulseDeadline := none })

/-- R85 `adv.long`: the expansion advances n ticks, and is stuck exactly where a deadline falls inside. -/
def Obligations.AdvLongAdvances : Prop :=
  ∀ (s : State) (n : Nat),
    (advanceEnabled s n = true →
      ∃ t, execAll (advLong n) s = .next t ∧ t = { s with now := s.now + n, ret := t.ret }) ∧
    (advanceEnabled s n = false → execAll (advLong n) s = .fault .pastDeadline) ∧
    (∀ i ∈ advLong n, i.wellFormed = true)

/-- R84: the assembler cannot spell a reserved word: every operation it gives is in range, and its word decodes to it. -/
def Obligations.AssemblerSpellsLegalWords : Prop :=
  ∀ (line : List Char) (is : List Instr), assembleLine line = some is →
    ∀ i ∈ is, i.wellFormed = true ∧ decodeWord (encode i) = .ok i

/-- R58: the path of a file is the output directory and the stamp's date and time, each field at its fixed width; so two
stamps that differ name two files (R62, R176). -/
def Obligations.FileNameSpellsStamp : Prop :=
  (∀ t : WallClock, ∃ date time : List Char,
    filePath (fileName t) =
      Config.userDataRoot ++ "/printer/print_".toList ++ date ++ ['_'] ++ time ++ ".prn".toList ∧
    date.length = 8 ∧ time.length = 6 ∧ (∀ ch ∈ date ++ time, '0' ≤ ch ∧ ch ≤ '9') ∧
    digitsNumber date = t.year.val * 10000 + t.month.val * 100 + t.day.val ∧
    digitsNumber time = t.hour.val * 10000 + t.minute.val * 100 + t.second.val) ∧
  (∀ t u : WallClock, fileName t = fileName u → t = u)
end

