-- ==== Sys2Proof/Laws/State.lean ====
section
/-! SUPPORT. One lemma per field per update of the state and of the device, so that no proof unfolds a record update. -/

namespace Sys2Proof.Machine

/-! ## Updates of the state -/

variable (s : State) (d : DeviceState)

@[simp] theorem State.emit_dev (e : OutEvent) : (s.emit e).dev = s.dev := rfl
@[simp] theorem State.emit_now (e : OutEvent) : (s.emit e).now = s.now := rfl
@[simp] theorem State.emit_fs (e : OutEvent) : (s.emit e).fs = s.fs := rfl
@[simp] theorem State.emit_out (e : OutEvent) : (s.emit e).out = s.out ++ [e] := rfl
@[simp] theorem State.emit_refused (e : OutEvent) : (s.emit e).refused = s.refused := rfl
@[simp] theorem State.emit_ret (e : OutEvent) : (s.emit e).ret = s.ret := rfl
@[simp] theorem State.emit_draws (e : OutEvent) : (s.emit e).draws = s.draws := rfl
@[simp] theorem State.emit_trace (e : OutEvent) : (s.emit e).trace = s.trace := rfl

@[simp] theorem State.answer_dev (r : Option Byte) : (s.answer r).dev = s.dev := rfl
@[simp] theorem State.answer_now (r : Option Byte) : (s.answer r).now = s.now := rfl
@[simp] theorem State.answer_fs (r : Option Byte) : (s.answer r).fs = s.fs := rfl
@[simp] theorem State.answer_out (r : Option Byte) : (s.answer r).out = s.out := rfl
@[simp] theorem State.answer_refused (r : Option Byte) : (s.answer r).refused = s.refused := rfl
@[simp] theorem State.answer_ret (r : Option Byte) : (s.answer r).ret = r := rfl
@[simp] theorem State.answer_draws (r : Option Byte) : (s.answer r).draws = s.draws := rfl
@[simp] theorem State.answer_trace (r : Option Byte) : (s.answer r).trace = s.trace := rfl

@[simp] theorem State.setDevice_dev (dev : Device) : (s.setDevice dev).dev = dev := rfl
@[simp] theorem State.setDevice_now (dev : Device) : (s.setDevice dev).now = s.now := rfl
@[simp] theorem State.setDevice_fs (dev : Device) : (s.setDevice dev).fs = s.fs := rfl
@[simp] theorem State.setDevice_out (dev : Device) : (s.setDevice dev).out = s.out := rfl
@[simp] theorem State.setDevice_refused (dev : Device) : (s.setDevice dev).refused = s.refused := rfl
@[simp] theorem State.setDevice_ret (dev : Device) : (s.setDevice dev).ret = s.ret := rfl
@[simp] theorem State.setDevice_draws (dev : Device) : (s.setDevice dev).draws = s.draws := rfl
@[simp] theorem State.setDevice_trace (dev : Device) : (s.setDevice dev).trace = s.trace := rfl

@[simp] theorem State.setFiles_dev (fs : FileSystem) : (s.setFiles fs).dev = s.dev := rfl
@[simp] theorem State.setFiles_now (fs : FileSystem) : (s.setFiles fs).now = s.now := rfl
@[simp] theorem State.setFiles_fs (fs : FileSystem) : (s.setFiles fs).fs = fs := rfl
@[simp] theorem State.setFiles_out (fs : FileSystem) : (s.setFiles fs).out = s.out := rfl
@[simp] theorem State.setFiles_refused (fs : FileSystem) : (s.setFiles fs).refused = s.refused := rfl
@[simp] theorem State.setFiles_ret (fs : FileSystem) : (s.setFiles fs).ret = s.ret := rfl
@[simp] theorem State.setFiles_draws (fs : FileSystem) : (s.setFiles fs).draws = s.draws := rfl
@[simp] theorem State.setFiles_trace (fs : FileSystem) : (s.setFiles fs).trace = s.trace := rfl

@[simp] theorem State.addTime_dev (delta : Nat) : (s.addTime delta).dev = s.dev := rfl
@[simp] theorem State.addTime_now (delta : Nat) : (s.addTime delta).now = s.now + delta := rfl
@[simp] theorem State.addTime_fs (delta : Nat) : (s.addTime delta).fs = s.fs := rfl
@[simp] theorem State.addTime_out (delta : Nat) : (s.addTime delta).out = s.out := rfl
@[simp] theorem State.addTime_refused (delta : Nat) : (s.addTime delta).refused = s.refused := rfl
@[simp] theorem State.addTime_ret (delta : Nat) : (s.addTime delta).ret = s.ret := rfl
@[simp] theorem State.addTime_draws (delta : Nat) : (s.addTime delta).draws = s.draws := rfl
@[simp] theorem State.addTime_trace (delta : Nat) : (s.addTime delta).trace = s.trace := rfl

@[simp] theorem State.mark_dev : (s.mark).dev = s.dev := rfl
@[simp] theorem State.mark_now : (s.mark).now = s.now := rfl
@[simp] theorem State.mark_fs : (s.mark).fs = s.fs := rfl
@[simp] theorem State.mark_out : (s.mark).out = s.out := rfl
@[simp] theorem State.mark_refused : (s.mark).refused = true := rfl
@[simp] theorem State.mark_ret : (s.mark).ret = s.ret := rfl
@[simp] theorem State.mark_draws : (s.mark).draws = s.draws := rfl
@[simp] theorem State.mark_trace : (s.mark).trace = s.trace := rfl

@[simp] theorem State.take_dev (draws : Draws) (rest : List Event) : (s.take draws rest).dev = s.dev := rfl
@[simp] theorem State.take_now (draws : Draws) (rest : List Event) : (s.take draws rest).now = s.now := rfl
@[simp] theorem State.take_fs (draws : Draws) (rest : List Event) : (s.take draws rest).fs = s.fs := rfl
@[simp] theorem State.take_out (draws : Draws) (rest : List Event) : (s.take draws rest).out = s.out := rfl
@[simp] theorem State.take_refused (draws : Draws) (rest : List Event) : (s.take draws rest).refused = s.refused := rfl
@[simp] theorem State.take_ret (draws : Draws) (rest : List Event) : (s.take draws rest).ret = s.ret := rfl
@[simp] theorem State.take_draws (draws : Draws) (rest : List Event) : (s.take draws rest).draws = draws := rfl
@[simp] theorem State.take_trace (draws : Draws) (rest : List Event) : (s.take draws rest).trace = rest := rfl

@[simp] theorem State.present_dev (w : Word) : (s.present w).dev = s.dev := rfl
@[simp] theorem State.present_now (w : Word) : (s.present w).now = s.now := rfl
@[simp] theorem State.present_fs (w : Word) : (s.present w).fs = s.fs := rfl
@[simp] theorem State.present_out (w : Word) : (s.present w).out = s.out := rfl
@[simp] theorem State.present_refused (w : Word) : (s.present w).refused = s.refused := rfl
@[simp] theorem State.present_ret (w : Word) : (s.present w).ret = s.ret := rfl
@[simp] theorem State.present_draws (w : Word) : (s.present w).draws = s.draws := rfl
@[simp] theorem State.present_trace (w : Word) : (s.present w).trace = ⟨w, s.draws⟩ :: s.trace := rfl

/-! ## Updates of the device -/

@[simp] theorem DeviceState.latch_dataLatch (v : Byte) : (d.latch v).dataLatch = v := rfl
@[simp] theorem DeviceState.latch_control (v : Byte) : (d.latch v).control = d.control := rfl
@[simp] theorem DeviceState.latch_autofeed (v : Byte) : (d.latch v).autofeed = d.autofeed := rfl
@[simp] theorem DeviceState.latch_selected (v : Byte) : (d.latch v).selected = d.selected := rfl
@[simp] theorem DeviceState.latch_ackPending (v : Byte) : (d.latch v).ackPending = d.ackPending := rfl
@[simp] theorem DeviceState.latch_busy (v : Byte) : (d.latch v).busy = d.busy := rfl
@[simp] theorem DeviceState.latch_interruptPending (v : Byte) : (d.latch v).interruptPending = d.interruptPending := rfl
@[simp] theorem DeviceState.latch_errorFlag (v : Byte) : (d.latch v).errorFlag = d.errorFlag := rfl
@[simp] theorem DeviceState.latch_buf (v : Byte) : (d.latch v).buf = d.buf := rfl
@[simp] theorem DeviceState.latch_cursor (v : Byte) : (d.latch v).cursor = d.cursor := rfl
@[simp] theorem DeviceState.latch_outputFile (v : Byte) : (d.latch v).outputFile = d.outputFile := rfl
@[simp] theorem DeviceState.latch_pulseDeadline (v : Byte) : (d.latch v).pulseDeadline = d.pulseDeadline := rfl
@[simp] theorem DeviceState.latch_timeoutDeadline (v : Byte) : (d.latch v).timeoutDeadline = d.timeoutDeadline := rfl

@[simp] theorem DeviceState.setControl_dataLatch (v : Byte) : (d.setControl v).dataLatch = d.dataLatch := rfl
@[simp] theorem DeviceState.setControl_control (v : Byte) : (d.setControl v).control = v := rfl
@[simp] theorem DeviceState.setControl_autofeed (v : Byte) : (d.setControl v).autofeed = d.autofeed := rfl
@[simp] theorem DeviceState.setControl_selected (v : Byte) : (d.setControl v).selected = d.selected := rfl
@[simp] theorem DeviceState.setControl_ackPending (v : Byte) : (d.setControl v).ackPending = d.ackPending := rfl
@[simp] theorem DeviceState.setControl_busy (v : Byte) : (d.setControl v).busy = d.busy := rfl
@[simp] theorem DeviceState.setControl_interruptPending (v : Byte) : (d.setControl v).interruptPending = d.interruptPending := rfl
@[simp] theorem DeviceState.setControl_errorFlag (v : Byte) : (d.setControl v).errorFlag = d.errorFlag := rfl
@[simp] theorem DeviceState.setControl_buf (v : Byte) : (d.setControl v).buf = d.buf := rfl
@[simp] theorem DeviceState.setControl_cursor (v : Byte) : (d.setControl v).cursor = d.cursor := rfl
@[simp] theorem DeviceState.setControl_outputFile (v : Byte) : (d.setControl v).outputFile = d.outputFile := rfl
@[simp] theorem DeviceState.setControl_pulseDeadline (v : Byte) : (d.setControl v).pulseDeadline = d.pulseDeadline := rfl
@[simp] theorem DeviceState.setControl_timeoutDeadline (v : Byte) : (d.setControl v).timeoutDeadline = d.timeoutDeadline := rfl

@[simp] theorem DeviceState.setAutofeed_dataLatch (b : Bool) : (d.setAutofeed b).dataLatch = d.dataLatch := rfl
@[simp] theorem DeviceState.setAutofeed_control (b : Bool) : (d.setAutofeed b).control = d.control := rfl
@[simp] theorem DeviceState.setAutofeed_autofeed (b : Bool) : (d.setAutofeed b).autofeed = b := rfl
@[simp] theorem DeviceState.setAutofeed_selected (b : Bool) : (d.setAutofeed b).selected = d.selected := rfl
@[simp] theorem DeviceState.setAutofeed_ackPending (b : Bool) : (d.setAutofeed b).ackPending = d.ackPending := rfl
@[simp] theorem DeviceState.setAutofeed_busy (b : Bool) : (d.setAutofeed b).busy = d.busy := rfl
@[simp] theorem DeviceState.setAutofeed_interruptPending (b : Bool) : (d.setAutofeed b).interruptPending = d.interruptPending := rfl
@[simp] theorem DeviceState.setAutofeed_errorFlag (b : Bool) : (d.setAutofeed b).errorFlag = d.errorFlag := rfl
@[simp] theorem DeviceState.setAutofeed_buf (b : Bool) : (d.setAutofeed b).buf = d.buf := rfl
@[simp] theorem DeviceState.setAutofeed_cursor (b : Bool) : (d.setAutofeed b).cursor = d.cursor := rfl
@[simp] theorem DeviceState.setAutofeed_outputFile (b : Bool) : (d.setAutofeed b).outputFile = d.outputFile := rfl
@[simp] theorem DeviceState.setAutofeed_pulseDeadline (b : Bool) : (d.setAutofeed b).pulseDeadline = d.pulseDeadline := rfl
@[simp] theorem DeviceState.setAutofeed_timeoutDeadline (b : Bool) : (d.setAutofeed b).timeoutDeadline = d.timeoutDeadline := rfl

@[simp] theorem DeviceState.setSelected_dataLatch (b : Bool) : (d.setSelected b).dataLatch = d.dataLatch := rfl
@[simp] theorem DeviceState.setSelected_control (b : Bool) : (d.setSelected b).control = d.control := rfl
@[simp] theorem DeviceState.setSelected_autofeed (b : Bool) : (d.setSelected b).autofeed = d.autofeed := rfl
@[simp] theorem DeviceState.setSelected_selected (b : Bool) : (d.setSelected b).selected = b := rfl
@[simp] theorem DeviceState.setSelected_ackPending (b : Bool) : (d.setSelected b).ackPending = d.ackPending := rfl
@[simp] theorem DeviceState.setSelected_busy (b : Bool) : (d.setSelected b).busy = d.busy := rfl
@[simp] theorem DeviceState.setSelected_interruptPending (b : Bool) : (d.setSelected b).interruptPending = d.interruptPending := rfl
@[simp] theorem DeviceState.setSelected_errorFlag (b : Bool) : (d.setSelected b).errorFlag = d.errorFlag := rfl
@[simp] theorem DeviceState.setSelected_buf (b : Bool) : (d.setSelected b).buf = d.buf := rfl
@[simp] theorem DeviceState.setSelected_cursor (b : Bool) : (d.setSelected b).cursor = d.cursor := rfl
@[simp] theorem DeviceState.setSelected_outputFile (b : Bool) : (d.setSelected b).outputFile = d.outputFile := rfl
@[simp] theorem DeviceState.setSelected_pulseDeadline (b : Bool) : (d.setSelected b).pulseDeadline = d.pulseDeadline := rfl
@[simp] theorem DeviceState.setSelected_timeoutDeadline (b : Bool) : (d.setSelected b).timeoutDeadline = d.timeoutDeadline := rfl

@[simp] theorem DeviceState.setAck_dataLatch (b : Bool) : (d.setAck b).dataLatch = d.dataLatch := rfl
@[simp] theorem DeviceState.setAck_control (b : Bool) : (d.setAck b).control = d.control := rfl
@[simp] theorem DeviceState.setAck_autofeed (b : Bool) : (d.setAck b).autofeed = d.autofeed := rfl
@[simp] theorem DeviceState.setAck_selected (b : Bool) : (d.setAck b).selected = d.selected := rfl
@[simp] theorem DeviceState.setAck_ackPending (b : Bool) : (d.setAck b).ackPending = b := rfl
@[simp] theorem DeviceState.setAck_busy (b : Bool) : (d.setAck b).busy = d.busy := rfl
@[simp] theorem DeviceState.setAck_interruptPending (b : Bool) : (d.setAck b).interruptPending = d.interruptPending := rfl
@[simp] theorem DeviceState.setAck_errorFlag (b : Bool) : (d.setAck b).errorFlag = d.errorFlag := rfl
@[simp] theorem DeviceState.setAck_buf (b : Bool) : (d.setAck b).buf = d.buf := rfl
@[simp] theorem DeviceState.setAck_cursor (b : Bool) : (d.setAck b).cursor = d.cursor := rfl
@[simp] theorem DeviceState.setAck_outputFile (b : Bool) : (d.setAck b).outputFile = d.outputFile := rfl
@[simp] theorem DeviceState.setAck_pulseDeadline (b : Bool) : (d.setAck b).pulseDeadline = d.pulseDeadline := rfl
@[simp] theorem DeviceState.setAck_timeoutDeadline (b : Bool) : (d.setAck b).timeoutDeadline = d.timeoutDeadline := rfl

@[simp] theorem DeviceState.emptied_dataLatch : (d.emptied).dataLatch = d.dataLatch := rfl
@[simp] theorem DeviceState.emptied_control : (d.emptied).control = d.control := rfl
@[simp] theorem DeviceState.emptied_autofeed : (d.emptied).autofeed = d.autofeed := rfl
@[simp] theorem DeviceState.emptied_selected : (d.emptied).selected = d.selected := rfl
@[simp] theorem DeviceState.emptied_ackPending : (d.emptied).ackPending = d.ackPending := rfl
@[simp] theorem DeviceState.emptied_busy : (d.emptied).busy = d.busy := rfl
@[simp] theorem DeviceState.emptied_interruptPending : (d.emptied).interruptPending = d.interruptPending := rfl
@[simp] theorem DeviceState.emptied_errorFlag : (d.emptied).errorFlag = d.errorFlag := rfl
@[simp] theorem DeviceState.emptied_buf : (d.emptied).buf = d.buf := rfl
@[simp] theorem DeviceState.emptied_cursor : (d.emptied).cursor = 0 := rfl
@[simp] theorem DeviceState.emptied_outputFile : (d.emptied).outputFile = d.outputFile := rfl
@[simp] theorem DeviceState.emptied_pulseDeadline : (d.emptied).pulseDeadline = d.pulseDeadline := rfl
@[simp] theorem DeviceState.emptied_timeoutDeadline : (d.emptied).timeoutDeadline = d.timeoutDeadline := rfl

@[simp] theorem DeviceState.setFile_dataLatch (f : Option FileName) : (d.setFile f).dataLatch = d.dataLatch := rfl
@[simp] theorem DeviceState.setFile_control (f : Option FileName) : (d.setFile f).control = d.control := rfl
@[simp] theorem DeviceState.setFile_autofeed (f : Option FileName) : (d.setFile f).autofeed = d.autofeed := rfl
@[simp] theorem DeviceState.setFile_selected (f : Option FileName) : (d.setFile f).selected = d.selected := rfl
@[simp] theorem DeviceState.setFile_ackPending (f : Option FileName) : (d.setFile f).ackPending = d.ackPending := rfl
@[simp] theorem DeviceState.setFile_busy (f : Option FileName) : (d.setFile f).busy = d.busy := rfl
@[simp] theorem DeviceState.setFile_interruptPending (f : Option FileName) : (d.setFile f).interruptPending = d.interruptPending := rfl
@[simp] theorem DeviceState.setFile_errorFlag (f : Option FileName) : (d.setFile f).errorFlag = d.errorFlag := rfl
@[simp] theorem DeviceState.setFile_buf (f : Option FileName) : (d.setFile f).buf = d.buf := rfl
@[simp] theorem DeviceState.setFile_cursor (f : Option FileName) : (d.setFile f).cursor = d.cursor := rfl
@[simp] theorem DeviceState.setFile_outputFile (f : Option FileName) : (d.setFile f).outputFile = f := rfl
@[simp] theorem DeviceState.setFile_pulseDeadline (f : Option FileName) : (d.setFile f).pulseDeadline = d.pulseDeadline := rfl
@[simp] theorem DeviceState.setFile_timeoutDeadline (f : Option FileName) : (d.setFile f).timeoutDeadline = d.timeoutDeadline := rfl

@[simp] theorem DeviceState.setPulse_dataLatch (t : Option Nat) : (d.setPulse t).dataLatch = d.dataLatch := rfl
@[simp] theorem DeviceState.setPulse_control (t : Option Nat) : (d.setPulse t).control = d.control := rfl
@[simp] theorem DeviceState.setPulse_autofeed (t : Option Nat) : (d.setPulse t).autofeed = d.autofeed := rfl
@[simp] theorem DeviceState.setPulse_selected (t : Option Nat) : (d.setPulse t).selected = d.selected := rfl
@[simp] theorem DeviceState.setPulse_ackPending (t : Option Nat) : (d.setPulse t).ackPending = d.ackPending := rfl
@[simp] theorem DeviceState.setPulse_busy (t : Option Nat) : (d.setPulse t).busy = d.busy := rfl
@[simp] theorem DeviceState.setPulse_interruptPending (t : Option Nat) : (d.setPulse t).interruptPending = d.interruptPending := rfl
@[simp] theorem DeviceState.setPulse_errorFlag (t : Option Nat) : (d.setPulse t).errorFlag = d.errorFlag := rfl
@[simp] theorem DeviceState.setPulse_buf (t : Option Nat) : (d.setPulse t).buf = d.buf := rfl
@[simp] theorem DeviceState.setPulse_cursor (t : Option Nat) : (d.setPulse t).cursor = d.cursor := rfl
@[simp] theorem DeviceState.setPulse_outputFile (t : Option Nat) : (d.setPulse t).outputFile = d.outputFile := rfl
@[simp] theorem DeviceState.setPulse_pulseDeadline (t : Option Nat) : (d.setPulse t).pulseDeadline = t := rfl
@[simp] theorem DeviceState.setPulse_timeoutDeadline (t : Option Nat) : (d.setPulse t).timeoutDeadline = d.timeoutDeadline := rfl

@[simp] theorem DeviceState.setTimeout_dataLatch (t : Option Nat) : (d.setTimeout t).dataLatch = d.dataLatch := rfl
@[simp] theorem DeviceState.setTimeout_control (t : Option Nat) : (d.setTimeout t).control = d.control := rfl
@[simp] theorem DeviceState.setTimeout_autofeed (t : Option Nat) : (d.setTimeout t).autofeed = d.autofeed := rfl
@[simp] theorem DeviceState.setTimeout_selected (t : Option Nat) : (d.setTimeout t).selected = d.selected := rfl
@[simp] theorem DeviceState.setTimeout_ackPending (t : Option Nat) : (d.setTimeout t).ackPending = d.ackPending := rfl
@[simp] theorem DeviceState.setTimeout_busy (t : Option Nat) : (d.setTimeout t).busy = d.busy := rfl
@[simp] theorem DeviceState.setTimeout_interruptPending (t : Option Nat) : (d.setTimeout t).interruptPending = d.interruptPending := rfl
@[simp] theorem DeviceState.setTimeout_errorFlag (t : Option Nat) : (d.setTimeout t).errorFlag = d.errorFlag := rfl
@[simp] theorem DeviceState.setTimeout_buf (t : Option Nat) : (d.setTimeout t).buf = d.buf := rfl
@[simp] theorem DeviceState.setTimeout_cursor (t : Option Nat) : (d.setTimeout t).cursor = d.cursor := rfl
@[simp] theorem DeviceState.setTimeout_outputFile (t : Option Nat) : (d.setTimeout t).outputFile = d.outputFile := rfl
@[simp] theorem DeviceState.setTimeout_pulseDeadline (t : Option Nat) : (d.setTimeout t).pulseDeadline = d.pulseDeadline := rfl
@[simp] theorem DeviceState.setTimeout_timeoutDeadline (t : Option Nat) : (d.setTimeout t).timeoutDeadline = t := rfl

/-! ## The start of a run -/

section
variable (fs : FileSystem) (trace : List Event)

@[simp] theorem State.start_dev : (State.start fs trace).dev = .absent := rfl
@[simp] theorem State.start_now : (State.start fs trace).now = 0 := rfl
@[simp] theorem State.start_fs : (State.start fs trace).fs = fs := rfl
@[simp] theorem State.start_out : (State.start fs trace).out = [] := rfl
@[simp] theorem State.start_refused : (State.start fs trace).refused = false := rfl
@[simp] theorem State.start_ret : (State.start fs trace).ret = none := rfl
@[simp] theorem State.start_trace : (State.start fs trace).trace = trace := rfl

end

/-! ## A device and a state put together -/

variable (r : DeviceState × State)

@[simp] theorem rejoin_dev : (rejoin r).dev = .present r.1 := rfl
@[simp] theorem rejoin_now : (rejoin r).now = r.2.now := rfl
@[simp] theorem rejoin_fs : (rejoin r).fs = r.2.fs := rfl
@[simp] theorem rejoin_out : (rejoin r).out = r.2.out := rfl
@[simp] theorem rejoin_refused : (rejoin r).refused = r.2.refused := rfl
@[simp] theorem rejoin_ret : (rejoin r).ret = r.2.ret := rfl
@[simp] theorem rejoin_draws : (rejoin r).draws = r.2.draws := rfl
@[simp] theorem rejoin_trace : (rejoin r).trace = r.2.trace := rfl

/-! ## What reads a device -/

@[simp] theorem buffered_present : (Device.present d).buffered = bufferedBytes d := rfl
@[simp] theorem buffered_absent : Device.absent.buffered = [] := rfl
@[simp] theorem deadlines_absent : Device.absent.deadlines = [] := rfl
@[simp] theorem deadlines_present :
    (Device.present d).deadlines = d.pulseDeadline.toList ++ d.timeoutDeadline.toList := rfl

end Sys2Proof.Machine
end

