-- ==== Sys2Proof/Laws/Storage.lean ====
section
/-! SUPPORT. The laws of the two stores, the buffer's storage and the file-system map: what a read sees after a write, and
that every write keeps the canonical form. -/

namespace Sys2Proof.Machine

/-! ## The buffer's storage -/

/-- Every address listed is above `a`. -/
def Memory.above (m : Memory) (a : Nat) : Prop := ∀ c ∈ m, a < c.1

theorem Memory.read_above {m : Memory} {a : Nat} (h : Memory.above m a) : Memory.read m a = 0x00#8 := by
  induction m with
  | nil => rfl
  | cons c rest ih =>
    have hc : a < c.1 := h c (by simp)
    have hr : Memory.above rest a := fun x hx => h x (by simp [hx])
    simp [Memory.read, Nat.ne_of_lt hc, ih hr]

/-- The sorted part of the canonical form. -/
theorem Memory.read_write {m : Memory} (hm : m.Pairwise (fun c c' => c.1 < c'.1)) (a b : Nat) (v : Byte) :
    Memory.read (Memory.write m a v) b = if b = a then v else Memory.read m b := by
  induction m with
  | nil => by_cases hv : v = 0x00#8 <;> by_cases hb : b = a <;> simp [Memory.write, Memory.read, hv, hb]
  | cons c rest ih =>
    obtain ⟨x, w⟩ := c
    rw [List.pairwise_cons] at hm
    have habove : Memory.above rest x := fun y hy => hm.1 y hy
    simp only [Memory.write]
    split
    · rename_i hlt
      have hz : Memory.read ((x, w) :: rest) a = 0x00#8 :=
        Memory.read_above fun y hy => by
          rcases List.mem_cons.mp hy with rfl | hy
          · exact hlt
          · exact Nat.lt_trans hlt (habove y hy)
      by_cases hv : v = 0x00#8
      · by_cases hb : b = a
        · subst hb; simp [hv, hz]
        · simp [hv, hb]
      · by_cases hb : b = a <;> simp [hv, hb, Memory.read]
    · split
      · rename_i _ heq
        subst heq
        by_cases hv : v = 0x00#8
        · by_cases hb : b = a
          · subst hb; simp [hv, Memory.read_above habove]
          · simp [hv, hb, Memory.read]
        · by_cases hb : b = a <;> simp [hv, hb, Memory.read]
      · rename_i _ hne
        simp only [Memory.read, ih hm.2]
        by_cases hb : b = x
        · subst hb; simp [Ne.symm hne]
        · simp [hb]

theorem Memory.mem_write {m : Memory} {a : Nat} {v : Byte} {c : Host.Cell} (h : c ∈ Memory.write m a v) :
    c ∈ m ∨ (c = (a, v) ∧ v ≠ 0x00#8) := by
  induction m with
  | nil => by_cases hv : v = 0x00#8 <;> simp_all [Memory.write]
  | cons x rest ih =>
    obtain ⟨b, w⟩ := x
    simp only [Memory.write] at h
    split at h
    · by_cases hv : v = 0x00#8
      · rw [if_pos hv] at h; exact .inl h
      · rw [if_neg hv] at h
        rcases List.mem_cons.mp h with rfl | h
        · exact .inr ⟨rfl, hv⟩
        · exact .inl h
    · split at h
      · by_cases hv : v = 0x00#8
        · rw [if_pos hv] at h; exact .inl (by simp [h])
        · rw [if_neg hv] at h
          rcases List.mem_cons.mp h with rfl | h
          · exact .inr ⟨rfl, hv⟩
          · exact .inl (by simp [h])
      · rcases List.mem_cons.mp h with rfl | h
        · exact .inl (by simp)
        · rcases ih h with h | h
          · exact .inl (by simp [h])
          · exact .inr h

theorem Memory.write_sorted {m : Memory} (hm : m.Pairwise (fun c c' => c.1 < c'.1)) (a : Nat) (v : Byte) :
    (Memory.write m a v).Pairwise (fun c c' => c.1 < c'.1) := by
  induction m with
  | nil => by_cases hv : v = 0x00#8 <;> simp [Memory.write, hv]
  | cons x rest ih =>
    obtain ⟨b, w⟩ := x
    have hm' := hm
    rw [List.pairwise_cons] at hm'
    simp only [Memory.write]
    split
    · rename_i hlt
      by_cases hv : v = 0x00#8
      · rw [if_pos hv]; exact hm
      · rw [if_neg hv, List.pairwise_cons]
        refine ⟨fun y hy => ?_, hm⟩
        rcases List.mem_cons.mp hy with rfl | hy
        · exact hlt
        · exact Nat.lt_trans hlt (hm'.1 y hy)
    · split
      · rename_i _ heq
        subst heq
        by_cases hv : v = 0x00#8
        · rw [if_pos hv]; exact hm'.2
        · rw [if_neg hv, List.pairwise_cons]; exact hm'
      · rename_i hlt hne
        rw [List.pairwise_cons]
        refine ⟨fun y hy => ?_, ih hm'.2⟩
        rcases Memory.mem_write hy with hy | ⟨rfl, _⟩
        · exact hm'.1 y hy
        · exact Nat.lt_of_le_of_ne (Nat.le_of_not_lt hlt) (Ne.symm hne)

/-- A write inside the buffer keeps the canonical form. -/
theorem Memory.write_wf {m : Memory} (hm : Memory.wf m) {a : Nat} (ha : a < Config.capacity) (v : Byte) :
    Memory.wf (Memory.write m a v) := by
  refine ⟨Memory.write_sorted hm.1 a v, fun c hc => ?_⟩
  rcases Memory.mem_write hc with hc | ⟨rfl, hv⟩
  · exact hm.2 c hc
  · exact ⟨ha, hv⟩

/-! ## The file-system map -/

theorem FileSystem.content_below {fs : FileSystem} {n : FileName} (h : ∀ e ∈ fs, n < e.1) :
    FileSystem.content fs n = none := by
  induction fs with
  | nil => rfl
  | cons e rest ih =>
    have he : n < e.1 := h e (by simp)
    simp [FileSystem.content, ne_of_lt he, ih fun x hx => h x (by simp [hx])]

/-- A write to one file is seen under its name and under no other. -/
theorem FileSystem.content_put {fs : FileSystem} (hf : FileSystem.wf fs) (n m : FileName) (c : List Byte) :
    FileSystem.content (FileSystem.put fs n c) m = if m = n then some c else FileSystem.content fs m := by
  induction fs with
  | nil => by_cases h : m = n <;> simp [FileSystem.put, FileSystem.content, h]
  | cons e rest ih =>
    obtain ⟨x, b⟩ := e
    rw [FileSystem.wf, List.pairwise_cons] at hf
    simp only [FileSystem.put]
    split
    · by_cases h : m = n <;> simp [FileSystem.content, h]
    · split
      · rename_i _ heq
        subst heq
        by_cases h : m = n <;> simp [FileSystem.content, h]
      · rename_i _ hne
        simp only [FileSystem.content, ih hf.2]
        by_cases h : m = x
        · subst h; simp [Ne.symm hne]
        · simp [h]

theorem FileSystem.mem_put {fs : FileSystem} {n : FileName} {c : List Byte} {e : FileName × List Byte}
    (h : e ∈ FileSystem.put fs n c) : e ∈ fs ∨ e = (n, c) := by
  induction fs with
  | nil => simpa [FileSystem.put] using h
  | cons x rest ih =>
    obtain ⟨m, b⟩ := x
    simp only [FileSystem.put] at h
    split at h
    · rcases List.mem_cons.mp h with rfl | h
      · exact .inr rfl
      · exact .inl h
    · split at h
      · rcases List.mem_cons.mp h with rfl | h
        · exact .inr rfl
        · exact .inl (by simp [h])
      · rcases List.mem_cons.mp h with rfl | h
        · exact .inl (by simp)
        · rcases ih h with h | h
          · exact .inl (by simp [h])
          · exact .inr h

/-- A write to a file keeps the canonical form. -/
theorem FileSystem.put_wf {fs : FileSystem} (hf : FileSystem.wf fs) (n : FileName) (c : List Byte) :
    FileSystem.wf (FileSystem.put fs n c) := by
  induction fs with
  | nil => simp [FileSystem.put]
  | cons x rest ih =>
    obtain ⟨m, b⟩ := x
    have hf' := hf
    rw [FileSystem.wf, List.pairwise_cons] at hf'
    simp only [FileSystem.put]
    split
    · rename_i hlt
      rw [FileSystem.wf, List.pairwise_cons]
      refine ⟨fun e he => ?_, hf⟩
      rcases List.mem_cons.mp he with rfl | he
      · exact hlt
      · exact lt_trans hlt (hf'.1 e he)
    · split
      · rename_i _ heq
        subst heq
        rw [FileSystem.wf, List.pairwise_cons]
        exact hf'
      · rename_i hlt hne
        rw [FileSystem.wf, List.pairwise_cons]
        refine ⟨fun e he => ?_, ih hf'.2⟩
        rcases FileSystem.mem_put he with he | rfl
        · exact hf'.1 e he
        · exact lt_of_le_of_ne (not_lt.mp hlt) (Ne.symm hne)

/-- FsOpenAppend: the file exists afterwards with the content it had, or empty (R59). -/
theorem FileSystem.content_openAppend {fs : FileSystem} (hf : FileSystem.wf fs) (n m : FileName) :
    FileSystem.content (FileSystem.openAppend fs n) m
      = if m = n then some ((FileSystem.content fs n).getD []) else FileSystem.content fs m := by
  unfold FileSystem.openAppend
  cases h : FileSystem.content fs n with
  | some c => by_cases hm : m = n <;> simp [hm, h]
  | none => simp [FileSystem.content_put hf]

theorem FileSystem.openAppend_wf {fs : FileSystem} (hf : FileSystem.wf fs) (n : FileName) :
    FileSystem.wf (FileSystem.openAppend fs n) := by
  unfold FileSystem.openAppend
  split
  · exact hf
  · exact FileSystem.put_wf hf n []

/-- FsWrite: the bytes stand after the content the file had, and every other file is as before (R60). -/
theorem FileSystem.content_append {fs : FileSystem} (hf : FileSystem.wf fs) (n m : FileName) (bytes : List Byte) :
    FileSystem.content (FileSystem.append fs n bytes) m
      = if m = n then some ((FileSystem.content fs n).getD [] ++ bytes) else FileSystem.content fs m :=
  FileSystem.content_put hf n m _

theorem FileSystem.append_wf {fs : FileSystem} (hf : FileSystem.wf fs) (n : FileName) (bytes : List Byte) :
    FileSystem.wf (FileSystem.append fs n bytes) :=
  FileSystem.put_wf hf n _

end Sys2Proof.Machine
end

