-- ==== Sys2Proof/Laws/Ops.lean ====
section
/-! SUPPORT. What each shared operation can do, said once: the flush, the end of a job, AcceptByte, the sub-steps of a
CONTROL write, the timer callbacks. Later proofs cite these and unfold none of the operations. -/

namespace Sys2Proof.Machine

variable (d : DeviceState) (s : State)

/-! ## The output trace's readings -/

@[simp] theorem openInLog_nil : openInLog [] = none := rfl
@[simp] theorem openInLog_append (out es : List OutEvent) :
    openInLog (out ++ es) = es.foldl openAfter (openInLog out) := by simp [openInLog]
@[simp] theorem written_nil : written [] = [] := rfl
@[simp] theorem written_append (a b : List OutEvent) : written (a ++ b) = written a ++ written b := by simp [written]
@[simp] theorem written_cons (e : OutEvent) (es : List OutEvent) : written (e :: es) = payload e ++ written es := rfl
@[simp] theorem irqCount_append (a b : List OutEvent) : irqCount (a ++ b) = irqCount a + irqCount b := by simp [irqCount]
@[simp] theorem failedOpens_append (a b : List OutEvent) :
    failedOpens (a ++ b) = failedOpens a + failedOpens b := by simp [failedOpens]
@[simp] theorem irqCount_nil : irqCount [] = 0 := rfl
@[simp] theorem irqCount_cons (e : OutEvent) (es : List OutEvent) :
    irqCount (e :: es) = irqCount es + if e = .irq then 1 else 0 := by cases e <;> simp [irqCount]
@[simp] theorem failedOpens_nil : failedOpens [] = 0 := rfl
@[simp] theorem failedOpens_cons (e : OutEvent) (es : List OutEvent) :
    failedOpens (e :: es) = failedOpens es + if e = .diag .openFailed then 1 else 0 := by
  cases e <;> simp [failedOpens]

/-! ## The buffered bytes -/

theorem bufferedBytes_of_empty (h : d.cursor.val = 0) : bufferedBytes d = [] := by simp [bufferedBytes, h]

@[simp] theorem bufferedBytes_emptied : bufferedBytes d.emptied = [] := by simp [bufferedBytes]

/-- The buffered bytes depend on the storage and the cursor alone. -/
theorem bufferedBytes_congr {d d' : DeviceState} (hb : d'.buf = d.buf) (hc : d'.cursor = d.cursor) :
    bufferedBytes d' = bufferedBytes d := by simp [bufferedBytes, hb, hc]

/-- What BufAppend leaves: the byte at the old cursor, the cursor one further, all else as it was (R47). -/
theorem bufAppend_some {v : Byte} {d d' : DeviceState} (h : bufAppend v d = some d') :
    d.cursor.val < Config.capacity ∧ d'.cursor.val = d.cursor.val + 1 ∧ d'.buf = Memory.write d.buf d.cursor.val v ∧
      d' = { d with buf := d'.buf, cursor := d'.cursor } := by
  unfold bufAppend at h
  split at h
  · rename_i hlt
    cases h
    exact ⟨hlt, rfl, rfl, rfl⟩
  · cases h

/-- BufAppend has no slot exactly when the cursor stands at CAPACITY. -/
theorem bufAppend_none {v : Byte} {d : DeviceState} : bufAppend v d = none ↔ d.cursor.val = Config.capacity := by
  unfold bufAppend
  split
  · rename_i h; simp [Nat.ne_of_lt h]
  · rename_i h; simp [Nat.le_antisymm (Nat.le_of_lt_succ d.cursor.isLt) (Nat.le_of_not_lt h)]

/-- BufAppend puts the byte after the bytes already buffered (R40, R47). -/
theorem bufferedBytes_bufAppend {v : Byte} {d d' : DeviceState} (hw : Memory.wf d.buf) (h : bufAppend v d = some d') :
    bufferedBytes d' = bufferedBytes d ++ [v] := by
  obtain ⟨-, hc, hb, -⟩ := bufAppend_some h
  simp only [bufferedBytes, hc, hb, List.range_succ, List.map_append, List.map_cons, List.map_nil,
    Memory.read_write hw.1, if_true]
  congr 1
  apply List.map_congr_left
  intro a ha
  rw [Memory.read_write hw.1, if_neg (Nat.ne_of_lt (List.mem_range.mp ha))]

/-! ## The flush (R52) -/

/-- Everything a flush can do. -/
theorem flush_cases :
    (d.cursor.val = 0 ∧ flush d s = (d, s)) ∨
    (∃ n, d.cursor.val ≠ 0 ∧ d.outputFile = some n ∧ flush d s = writeSink n d s) ∨
    (d.cursor.val ≠ 0 ∧ d.outputFile = none ∧ s.draws.openOk = true ∧
      flush d s = writeSink (fileName s.draws.stamp) (openSink (fileName s.draws.stamp) d s).1
        (openSink (fileName s.draws.stamp) d s).2) ∨
    (d.cursor.val ≠ 0 ∧ d.outputFile = none ∧ s.draws.openOk = false ∧ flush d s = dropBuffered d s) := by
  unfold flush
  by_cases hc : d.cursor.val = 0
  · exact .inl ⟨hc, if_pos hc⟩
  · rw [if_neg hc]
    cases hf : d.outputFile with
    | some n => exact .inr (.inl ⟨n, hc, rfl, rfl⟩)
    | none =>
      cases ho : s.draws.openOk with
      | true => exact .inr (.inr (.inl ⟨hc, rfl, rfl, by simp⟩))
      | false => exact .inr (.inr (.inr ⟨hc, rfl, rfl, by simp⟩))

/-- A flush touches only the cursor and the open file of the device (R52). -/
theorem flush_device :
    (flush d s).1 = { d with cursor := (flush d s).1.cursor, outputFile := (flush d s).1.outputFile } := by
  obtain ⟨_, h⟩ | ⟨n, _, _, h⟩ | ⟨_, _, _, h⟩ | ⟨_, _, _, h⟩ := flush_cases d s <;> rw [h] <;> rfl

/-- A flush touches only `fs` and `out` of the rest of the state (R52). -/
theorem flush_state : (flush d s).2 = { s with fs := (flush d s).2.fs, out := (flush d s).2.out } := by
  obtain ⟨_, h⟩ | ⟨n, _, _, h⟩ | ⟨_, _, _, h⟩ | ⟨_, _, _, h⟩ := flush_cases d s <;> rw [h] <;> rfl

/-- A flush always leaves the cursor at 0 (R48). -/
@[simp] theorem flush_cursor : (flush d s).1.cursor = 0 := by
  obtain ⟨h0, h⟩ | ⟨n, _, _, h⟩ | ⟨_, _, _, h⟩ | ⟨_, _, _, h⟩ := flush_cases d s <;> rw [h]
  · exact Fin.ext h0
  all_goals rfl

@[simp] theorem flush_dataLatch : (flush d s).1.dataLatch = d.dataLatch := by rw [flush_device]
@[simp] theorem flush_control : (flush d s).1.control = d.control := by rw [flush_device]
@[simp] theorem flush_autofeed : (flush d s).1.autofeed = d.autofeed := by rw [flush_device]
@[simp] theorem flush_selected : (flush d s).1.selected = d.selected := by rw [flush_device]
@[simp] theorem flush_ackPending : (flush d s).1.ackPending = d.ackPending := by rw [flush_device]
@[simp] theorem flush_busy : (flush d s).1.busy = d.busy := by rw [flush_device]
@[simp] theorem flush_interruptPending : (flush d s).1.interruptPending = d.interruptPending := by rw [flush_device]
@[simp] theorem flush_errorFlag : (flush d s).1.errorFlag = d.errorFlag := by rw [flush_device]
@[simp] theorem flush_buf : (flush d s).1.buf = d.buf := by rw [flush_device]
@[simp] theorem flush_pulseDeadline : (flush d s).1.pulseDeadline = d.pulseDeadline := by rw [flush_device]
@[simp] theorem flush_timeoutDeadline : (flush d s).1.timeoutDeadline = d.timeoutDeadline := by rw [flush_device]
@[simp] theorem flush_dev : (flush d s).2.dev = s.dev := by rw [flush_state]
@[simp] theorem flush_now : (flush d s).2.now = s.now := by rw [flush_state]
@[simp] theorem flush_refused : (flush d s).2.refused = s.refused := by rw [flush_state]
@[simp] theorem flush_ret : (flush d s).2.ret = s.ret := by rw [flush_state]
@[simp] theorem flush_draws : (flush d s).2.draws = s.draws := by rw [flush_state]
@[simp] theorem flush_trace : (flush d s).2.trace = s.trace := by rw [flush_state]

/-- What a flush leaves open is what its events leave open, if that held before (R30). -/
theorem flush_log {d : DeviceState} {s : State} (h : openInLog s.out = d.outputFile) :
    openInLog (flush d s).2.out = (flush d s).1.outputFile := by
  obtain ⟨_, h'⟩ | ⟨n, _, hn, h'⟩ | ⟨_, hn, _, h'⟩ | ⟨_, hn, _, h'⟩ := flush_cases d s <;> rw [h'] <;>
    simp [writeSink, openSink, dropBuffered, h, openAfter]

/-- A flush emits no interrupt. -/
@[simp] theorem flush_irqs : irqCount (flush d s).2.out = irqCount s.out := by
  obtain ⟨_, h⟩ | ⟨n, _, _, h⟩ | ⟨_, _, _, h⟩ | ⟨_, _, _, h⟩ := flush_cases d s <;> rw [h] <;>
    simp [writeSink, openSink, dropBuffered]

/-- A flush keeps the file system's canonical form. -/
theorem flush_fs_wf {d : DeviceState} {s : State} (h : FileSystem.wf s.fs) : FileSystem.wf (flush d s).2.fs := by
  obtain ⟨_, h'⟩ | ⟨n, _, _, h'⟩ | ⟨_, _, _, h'⟩ | ⟨_, _, _, h'⟩ := flush_cases d s <;> rw [h']
  · exact h
  · exact FileSystem.append_wf h n _
  · exact FileSystem.append_wf (FileSystem.openAppend_wf h _) _ _
  · exact h

/-- A flush changes no file but the one it writes to (R54, R55). -/
theorem flush_other_files {d : DeviceState} {s : State} (h : FileSystem.wf s.fs) {m : FileName}
    (hm : m ≠ sinkName d s) : FileSystem.content (flush d s).2.fs m = FileSystem.content s.fs m := by
  obtain ⟨_, h'⟩ | ⟨n, _, hn, h'⟩ | ⟨_, hn, _, h'⟩ | ⟨_, _, _, h'⟩ := flush_cases d s <;> rw [h']
  · simp only [sinkName, hn, Option.getD_some] at hm
    simp [writeSink, FileSystem.content_append h, hm]
  · simp only [sinkName, hn, Option.getD_none] at hm
    simp [writeSink, openSink, FileSystem.content_append (FileSystem.openAppend_wf h _),
      FileSystem.content_openAppend h, hm]
  · simp [dropBuffered]

/-- A flush neither reads nor writes the handshake fields of the device, nor the device object of the state (R52). -/
theorem flush_congr (c : Byte) (a se ak : Bool) (p t : Option Nat) (x : Device) :
    flush { d with control := c, autofeed := a, selected := se, ackPending := ak, pulseDeadline := p,
                   timeoutDeadline := t } { s with dev := x } =
      ({ (flush d s).1 with control := c, autofeed := a, selected := se, ackPending := ak, pulseDeadline := p,
                            timeoutDeadline := t }, { (flush d s).2 with dev := x }) := by
  rcases d with ⟨dl, ct, af, sl, ap, bs, ip, ef, bf, cu, file, pd, td⟩
  unfold flush
  by_cases h : cu.val = 0
  · simp only [h, if_true]
  · simp only [h, if_false]
    cases file with
    | some n => rfl
    | none =>
      cases ho : s.draws.openOk
      · simp only [Bool.false_eq_true, if_false]; rfl
      · simp only [if_true]; rfl

/-! ## The end of a job (R61, R120, R130) -/

/-- Everything the closing of the file can do. -/
theorem closeSink_cases :
    (∃ n, d.outputFile = some n ∧ closeSink d s = (d.setFile none, s.emit (.sinkClose n))) ∨
    (d.outputFile = none ∧ closeSink d s = (d, s)) := by
  unfold closeSink
  cases d.outputFile with
  | some n => exact .inl ⟨n, rfl, rfl⟩
  | none => exact .inr ⟨rfl, rfl⟩

/-- After the end of a job no file is open. -/
@[simp] theorem closeSink_outputFile : (closeSink d s).1.outputFile = none := by
  obtain ⟨n, _, h⟩ | ⟨h0, h⟩ := closeSink_cases d s <;> rw [h]
  · rfl
  · exact h0

theorem closeSink_device : (closeSink d s).1 = { d with outputFile := none } := by
  obtain ⟨n, _, h⟩ | ⟨h0, h⟩ := closeSink_cases d s
  · rw [h]; rfl
  · rw [h]; cases d; cases h0; rfl

theorem closeSink_state : (closeSink d s).2 = { s with out := (closeSink d s).2.out } := by
  obtain ⟨n, _, h⟩ | ⟨_, h⟩ := closeSink_cases d s
  · rw [h]; rfl
  · rw [h]

/-- After the end of a job the device is as it was, but for an empty buffer and no open file. -/
theorem endJob_device : (endJob d s).1 = { d with cursor := 0, outputFile := none } := by
  simp only [endJob, closeSink_device]
  rw [flush_device d s]
  simp

theorem endJob_state : (endJob d s).2 = { s with fs := (flush d s).2.fs, out := (endJob d s).2.out } := by
  have h := closeSink_state (flush d s).1 (flush d s).2
  simp only [endJob]
  rw [h, flush_state d s]

/-- The end of a job changes files by its flush alone (R61). -/
theorem endJob_fs : (endJob d s).2.fs = (flush d s).2.fs := by rw [endJob_state]

/-- The end of a job emits no interrupt (R130). -/
@[simp] theorem endJob_irqs : irqCount (endJob d s).2.out = irqCount s.out := by
  simp only [endJob]
  obtain ⟨n, _, h⟩ | ⟨_, h⟩ := closeSink_cases (flush d s).1 (flush d s).2 <;> rw [h] <;> simp

/-- The end of a job leaves no file open in the output trace. -/
theorem endJob_log {d : DeviceState} {s : State} (h : openInLog s.out = d.outputFile) :
    openInLog (endJob d s).2.out = none := by
  have hf := flush_log h
  simp only [endJob]
  obtain ⟨n, _, h'⟩ | ⟨h0, h'⟩ := closeSink_cases (flush d s).1 (flush d s).2 <;> rw [h']
  · simp [openAfter]
  · rw [hf, h0]

@[simp] theorem endJob_dev : (endJob d s).2.dev = s.dev := by rw [endJob_state]
@[simp] theorem endJob_now : (endJob d s).2.now = s.now := by rw [endJob_state]
@[simp] theorem endJob_refused : (endJob d s).2.refused = s.refused := by rw [endJob_state]
@[simp] theorem endJob_ret : (endJob d s).2.ret = s.ret := by rw [endJob_state]
@[simp] theorem endJob_draws : (endJob d s).2.draws = s.draws := by rw [endJob_state]
@[simp] theorem endJob_trace : (endJob d s).2.trace = s.trace := by rw [endJob_state]

theorem timeoutCallback_device :
    (timeoutCallback d s).1 = { d with cursor := 0, outputFile := none, timeoutDeadline := none } := by
  simp only [timeoutCallback, endJob_device]; rfl

theorem timeoutCallback_state : (timeoutCallback d s).2 = (endJob d s).2 := rfl

theorem teardown_state : (teardown d s).2 = (endJob d s).2 := rfl

/-! ## The handshake -/

/-- Everything AcceptByte can do where a slot is free (R101, R48). -/
theorem acceptByte_some {r : DeviceState × State} (h : acceptByte d s = some r) :
    ∃ full, bufAppend d.dataLatch d = some full ∧
      ((full.cursor.val = Config.capacity ∧ r = (startAck s.now (flush full s).1, (flush full s).2)) ∨
       (full.cursor.val ≠ Config.capacity ∧ r = (startAck s.now full, s))) := by
  unfold acceptByte at h
  cases hb : bufAppend d.dataLatch d with
  | none => rw [hb] at h; cases h
  | some full =>
    rw [hb] at h
    refine ⟨full, rfl, ?_⟩
    by_cases hc : full.cursor.val = Config.capacity
    · left; simp only [hc, if_true, Option.some.injEq, flush_now] at h; exact ⟨hc, h.symm⟩
    · right; simp only [hc, if_false, Option.some.injEq] at h; exact ⟨hc, h.symm⟩

/-- AcceptByte stops only where no slot is free. -/
theorem acceptByte_none : acceptByte d s = none ↔ d.cursor.val = Config.capacity := by
  unfold acceptByte
  cases hb : bufAppend d.dataLatch d with
  | none => simp [bufAppend_none.mp hb]
  | some full => simp [Nat.ne_of_lt (bufAppend_some hb).1]

/-- AcceptByte where the byte does not fill the buffer. -/
theorem acceptByte_of_lt {d : DeviceState} (h : d.cursor.val + 1 < Config.capacity) (s : State) :
    ∃ full, bufAppend d.dataLatch d = some full ∧ acceptByte d s = some (startAck s.now full, s) := by
  cases hb : bufAppend d.dataLatch d with
  | none => have := bufAppend_none.mp hb; omega
  | some full =>
    have := bufAppend_some hb
    have hne : full.cursor.val ≠ Config.capacity := by omega
    exact ⟨full, rfl, by unfold acceptByte; simp [hb, hne]⟩

/-- AcceptByte where the byte fills the buffer. -/
theorem acceptByte_of_full {d : DeviceState} (h : d.cursor.val + 1 = Config.capacity) (s : State) :
    ∃ full, bufAppend d.dataLatch d = some full ∧ full.cursor.val = Config.capacity ∧
      acceptByte d s = some (startAck s.now (flush full s).1, (flush full s).2) := by
  cases hb : bufAppend d.dataLatch d with
  | none => have := bufAppend_none.mp hb; omega
  | some full =>
    have := bufAppend_some hb
    have hc : full.cursor.val = Config.capacity := by omega
    exact ⟨full, rfl, hc, by unfold acceptByte; simp [hb, hc]⟩

/-- AcceptByte neither reads nor writes `control`, `autofeed` and `selected`, does not read the ACK and the deadlines, and
does not touch the device object of the state (R101). -/
theorem acceptByte_congr (c : Byte) (a se ak : Bool) (p t : Option Nat) (x : Device) :
    acceptByte { d with control := c, autofeed := a, selected := se, ackPending := ak, pulseDeadline := p,
                        timeoutDeadline := t } { s with dev := x } =
      (acceptByte d s).map fun r =>
        ({ r.1 with control := c, autofeed := a, selected := se }, { r.2 with dev := x }) := by
  unfold acceptByte bufAppend
  by_cases hc : d.cursor.val < Config.capacity
  · simp only [hc, dif_pos]
    by_cases hf : d.cursor.val + 1 = Config.capacity
    · simp only [hf, if_true]
      have := flush_congr { d with buf := Memory.write d.buf d.cursor.val d.dataLatch,
                                   cursor := ⟨d.cursor.val + 1, Nat.succ_lt_succ hc⟩ } s c a se ak p t x
      simp only [hf] at this
      rw [this]; rfl
    · simp only [hf, if_false]; rfl
  · simp only [hc]; rfl

/-- What AcceptByte leaves of the rest of the state: only `fs` and `out` can change. -/
theorem acceptByte_state {r : DeviceState × State} (h : acceptByte d s = some r) :
    r.2 = { s with fs := r.2.fs, out := r.2.out } := by
  obtain ⟨full, -, ⟨-, rfl⟩ | ⟨-, rfl⟩⟩ := acceptByte_some d s h
  · exact flush_state full s
  · rfl

/-- The ACK's start in its fields: ACK active, both deadlines from now, all else as it was (R101). -/
theorem startAck_eq (now : Nat) :
    startAck now d = { d with ackPending := true, pulseDeadline := some (now + Config.pulseDelay),
                              timeoutDeadline := some (now + Config.timeoutDelay) } := rfl

/-- Reset in its fields (R102). -/
theorem resetHandshake_eq :
    resetHandshake d = { d with ackPending := false, pulseDeadline := none, timeoutDeadline := none } := rfl

theorem strobeEdge_false {old v : Byte} (h : bit old 0 = true → bit v 0 = true) : strobeEdge old v = false := by
  unfold strobeEdge; cases ho : bit old 0 <;> simp_all

theorem strobeEdge_true {old v : Byte} (hv : bit v 0 = false) (ho : bit old 0 = true) : strobeEdge old v = true := by
  simp [strobeEdge, hv, ho]

theorem resetEdge_false {old v : Byte} (h : bit v 2 = true → bit old 2 = true) : resetEdge old v = false := by
  unfold resetEdge; cases hv : bit v 2 <;> simp_all

theorem resetEdge_true {old v : Byte} (hv : bit v 2 = true) (ho : bit old 2 = false) : resetEdge old v = true := by
  simp [resetEdge, hv, ho]

/-- The sub-steps before the STROBE edge, without a RESET edge (R92, R93). -/
theorem controlLevels_no_reset {v : Byte} (h : resetEdge d.control v = false) :
    controlLevels v d = { d with autofeed := bit v 1, selected := selectedAfter v d.selected } := by
  simp [controlLevels, resetStep, h]; rfl

/-- The sub-steps before the STROBE edge, with a RESET edge (R92, R98, R102). -/
theorem controlLevels_reset {v : Byte} (h : resetEdge d.control v = true) :
    controlLevels v d = { d with autofeed := bit v 1, selected := false, ackPending := false,
                                 pulseDeadline := none, timeoutDeadline := none } := by
  simp [controlLevels, resetStep, h]; rfl

/-- The sub-steps before the STROBE edge leave the data path and the previous byte alone. -/
theorem controlLevels_data (v : Byte) :
    (controlLevels v d).dataLatch = d.dataLatch ∧ (controlLevels v d).control = d.control ∧
      (controlLevels v d).buf = d.buf ∧ (controlLevels v d).cursor = d.cursor ∧
      (controlLevels v d).outputFile = d.outputFile ∧ (controlLevels v d).busy = d.busy ∧
      (controlLevels v d).interruptPending = d.interruptPending ∧ (controlLevels v d).errorFlag = d.errorFlag := by
  cases h : resetEdge d.control v
  · rw [controlLevels_no_reset d h]; simp
  · rw [controlLevels_reset d h]; simp

/-- `selected` after the sub-steps before the STROBE edge: cleared at a RESET edge, else set by bit 3 (R93, R98). -/
def selectedByWrite (v : Byte) (d : DeviceState) : Bool :=
  if resetEdge d.control v then false else selectedAfter v d.selected

/-- The sub-steps before the STROBE edge write the two flags; of the ACK and the deadlines they clear all or none. -/
theorem controlLevels_eq (v : Byte) : ∃ ak p t,
    controlLevels v d = { d with autofeed := bit v 1, selected := selectedByWrite v d, ackPending := ak,
                                 pulseDeadline := p, timeoutDeadline := t } := by
  cases h : resetEdge d.control v
  · exact ⟨d.ackPending, d.pulseDeadline, d.timeoutDeadline,
      by rw [controlLevels_no_reset d h]; simp [selectedByWrite, h]⟩
  · exact ⟨false, none, none, by rw [controlLevels_reset d h]; simp [selectedByWrite, h]⟩

/-- A CONTROL write without a STROBE edge. -/
theorem writeControl_no_strobe {v : Byte} (h : strobeEdge d.control v = false) :
    writeControl v d s = some ((controlLevels v d).setControl v, s) := by
  simp [writeControl, strobeStep, h]

/-- A CONTROL write with a STROBE edge. -/
theorem writeControl_strobe {v : Byte} (h : strobeEdge d.control v = true) :
    writeControl v d s = (acceptByte (controlLevels v d) s).map fun a => (a.1.setControl v, a.2) := by
  simp only [writeControl, strobeStep, h, if_true]
  cases acceptByte (controlLevels v d) s <;> rfl

/-- Everything a CONTROL write can do: without a STROBE edge only the levels and the store; with one, AcceptByte between
them (R89). -/
theorem writeControl_some {v : Byte} {r : DeviceState × State} (h : writeControl v d s = some r) :
    (strobeEdge d.control v = false ∧ r = ((controlLevels v d).setControl v, s)) ∨
    (strobeEdge d.control v = true ∧ ∃ a, acceptByte (controlLevels v d) s = some a ∧ r = (a.1.setControl v, a.2)) := by
  unfold writeControl strobeStep at h
  cases hs : strobeEdge d.control v with
  | false => rw [hs] at h; exact .inl ⟨rfl, by simpa using h.symm⟩
  | true =>
    right
    refine ⟨rfl, ?_⟩
    simp only [hs, if_true] at h
    cases ha : acceptByte (controlLevels v d) s with
    | none => rw [ha] at h; cases h
    | some a => rw [ha] at h; exact ⟨a, rfl, by simpa using h.symm⟩

/-- A CONTROL write stops only at a STROBE edge with no free slot. -/
theorem writeControl_none {v : Byte} :
    writeControl v d s = none ↔ strobeEdge d.control v = true ∧ d.cursor.val = Config.capacity := by
  have hc := (controlLevels_data d v).2.2.2.1
  have hn := acceptByte_none (controlLevels v d) s
  rw [hc] at hn
  unfold writeControl strobeStep
  cases hs : strobeEdge d.control v with
  | false => simp
  | true =>
    cases ha : acceptByte (controlLevels v d) s with
    | none => simpa using hn.mp ha
    | some a =>
      simp only [if_true, reduceCtorEq, true_and, false_iff]
      intro hcap
      rw [hn.mpr hcap] at ha
      cases ha

/-- Writing the device object that stands there changes nothing. -/
theorem withDevice_self {s : State} {x : Device} (h : s.dev = x) : { s with dev := x } = s := by
  cases s; cases h; rfl

/-- The buffer and the rest of the state after a byte is appended: flushed when it is full (R48). -/
def storeByte (full : DeviceState) (s : State) : DeviceState × State :=
  if full.cursor.val = Config.capacity then flush full s else (full, s)

/-- A STROBE edge in its fields: the latch appended, a full buffer flushed, the ACK started, and the flags of the write,
whether or not the same write makes a RESET edge (R97, R99, R101). -/
theorem writeControl_strobe_eq {v : Byte} {d : DeviceState} {s : State} {r : DeviceState × State}
    (h : strobeEdge d.control v = true) (hr : writeControl v d s = some r) :
    ∃ full, bufAppend d.dataLatch d = some full ∧
      r = ({ (storeByte full s).1 with
              control := v, autofeed := bit v 1, selected := selectedByWrite v d, ackPending := true,
              pulseDeadline := some (s.now + Config.pulseDelay),
              timeoutDeadline := some (s.now + Config.timeoutDelay) }, (storeByte full s).2) := by
  obtain ⟨ak, p, t, hl⟩ := controlLevels_eq d v
  rw [writeControl_strobe d s h, hl] at hr
  have hc := acceptByte_congr d s d.control (bit v 1) (selectedByWrite v d) ak p t s.dev
  have hr' := (congrArg (Option.map fun a => (DeviceState.setControl a.1 v, a.2)) hc).symm.trans hr
  cases ha : acceptByte d s with
  | none => rw [ha] at hr'; cases hr'
  | some a =>
    rw [ha] at hr'
    cases hr'
    obtain ⟨full, hb, ⟨hf, rfl⟩ | ⟨hf, rfl⟩⟩ := acceptByte_some d s ha
    · refine ⟨full, hb, ?_⟩
      rw [show storeByte full s = flush full s from if_pos hf]
      exact Prod.ext rfl (withDevice_self (flush_dev full s))
    · refine ⟨full, hb, ?_⟩
      rw [show storeByte full s = (full, s) from if_neg hf]
      rfl

/-- Everything the pulse callback can do (R119). -/
theorem pulseCallback_cases :
    (d.ackPending = true ∧ pulseCallback d s = ({ d with ackPending := false, pulseDeadline := none }, s.emit .irq)) ∨
    (d.ackPending = false ∧ pulseCallback d s = ({ d with pulseDeadline := none }, s)) := by
  unfold pulseCallback
  by_cases h : d.ackPending = true
  · exact .inl ⟨h, if_pos h⟩
  · exact .inr ⟨by simpa using h, if_neg h⟩

/-! ## STATUS -/

/-- The ACK mask has the one bit ACK_BIT (R103). -/
theorem ackMask_bit (i : Fin 8) : Config.ackMask.getLsbD i.val = decide (i = Config.ackBit) := by
  unfold Config.ackMask
  generalize Config.ackBit = b
  revert i b
  decide

end Sys2Proof.Machine
end

