-- ==== Sys2Proof/Laws/PerInstr.lean ====
section
/-! SUPPORT. Statements about every operation as syntax, one lemma per constructor. -/

namespace Sys2Proof.Laws.EncodedFormat

/-- The format of an operation's word, as the format column of the opcode table has it (R73, R79). -/
def expected : Instr → Format
  | .rdData | .rdStatus | .rdControl => .regRead
  | .wrData _ | .wrControl _ => .regWrite
  | .init | .close | .firePulse | .fireTimeout => .evt
  | .advance _ => .adv

/-- The encoder puts an operation into the format the opcode table gives it. -/
def Statement (i : Instr) : Prop := formatOf (encode i) = expected i

/-- K of a packed word is the K it was packed from. -/
theorem fieldK_packWord (k a : BitVec 2) (d : Byte) : fieldK (packWord k a d) = k := by
  ext i hi
  simp only [fieldK, packWord, BitVec.getElem_extractLsb', BitVec.getLsbD_append]
  have : i = 0 ∨ i = 1 := by omega
  rcases this with rfl | rfl <;> simp [BitVec.getLsbD_eq_getElem]

theorem rdData : Statement .rdData := by unfold Statement; decide
theorem rdStatus : Statement .rdStatus := by unfold Statement; decide
theorem rdControl : Statement .rdControl := by unfold Statement; decide
theorem wrData (v : Byte) : Statement (.wrData v) := by
  simp [Statement, encode, formatOf, fieldK_packWord, expected]
theorem wrControl (v : Byte) : Statement (.wrControl v) := by
  simp [Statement, encode, formatOf, fieldK_packWord, expected]
theorem init : Statement .init := by unfold Statement; decide
theorem close : Statement .close := by unfold Statement; decide
theorem firePulse : Statement .firePulse := by unfold Statement; decide
theorem fireTimeout : Statement .fireTimeout := by unfold Statement; decide
theorem advance (delta : Nat) : Statement (.advance delta) := by
  have hK : fieldK (encode (.advance delta)) = 3#2 := by
    ext i hi
    simp only [fieldK, encode, BitVec.getElem_extractLsb', BitVec.getLsbD_append]
    have : i = 0 ∨ i = 1 := by omega
    rcases this with rfl | rfl <;> simp [BitVec.getLsbD_eq_getElem]
  simp [Statement, formatOf, hK, expected]

end Sys2Proof.Laws.EncodedFormat
end

