-- ==== Sys2Proof/Laws/Step.lean ====
section
/-! SUPPORT. What one execution and one step can do, said once. -/

namespace Sys2Proof.Machine

/-! ## The meanings on a Present device -/

theorem exec_wrData_present {s : State} {d : DeviceState} (h : s.dev = .present d) (v : Byte) :
    exec (.wrData v) s = .next ((rejoin (d.latch v, s)).answer none) := by
  simp only [exec, execWrData, h]

theorem exec_rdStatus_present {s : State} {d : DeviceState} (h : s.dev = .present d) :
    exec .rdStatus s = .next (s.answer (some (statusValue d))) := by
  simp only [exec, execRdStatus, h]

theorem exec_wrControl_some {s : State} {d : DeviceState} (h : s.dev = .present d) {v : Byte}
    {r : DeviceState × State} (hr : writeControl v d s = some r) :
    exec (.wrControl v) s = .next ((rejoin r).answer none) := by
  simp only [exec, execWrControl, h, hr]

theorem exec_wrControl_none {s : State} {d : DeviceState} (h : s.dev = .present d) {v : Byte}
    (hr : writeControl v d s = none) : exec (.wrControl v) s = .fault .bufferFull := by
  simp only [exec, execWrControl, h, hr]

theorem exec_close_present {s : State} {d : DeviceState} (h : s.dev = .present d) :
    exec .close s = .next (((teardown d s).2.setDevice .absent).answer none) := by
  simp only [exec, execClose, h]

theorem exec_firePulse_due {s : State} {d : DeviceState} (h : s.dev = .present d) (hp : d.pulseDeadline = some s.now) :
    exec .firePulse s = .next ((rejoin (pulseCallback d s)).answer none) := by
  simp only [exec, execFirePulse, h, if_pos hp]

theorem exec_fireTimeout_due {s : State} {d : DeviceState} (h : s.dev = .present d)
    (ht : d.timeoutDeadline = some s.now) :
    exec .fireTimeout s = .next ((rejoin (timeoutCallback d s)).answer none) := by
  simp only [exec, execFireTimeout, h, if_pos ht]

/-! ## Inversion -/

/-- Everything an execution that gives a next state can have done. -/
theorem exec_cases {i : Instr} {s s' : State} (h : exec i s = .next s') :
    (∃ r, s' = s.answer r ∧ i ≠ .firePulse ∧ i ≠ .fireTimeout ∧ (∀ delta, i ≠ .advance delta) ∧
      (s.dev = .absent ∨ i = .rdData ∨ i = .rdStatus ∨ i = .rdControl)) ∨
    (∃ v d, i = .wrData v ∧ s.dev = .present d ∧ s' = (rejoin (d.latch v, s)).answer none) ∨
    (∃ v d r, i = .wrControl v ∧ s.dev = .present d ∧ writeControl v d s = some r ∧ s' = (rejoin r).answer none) ∨
    (i = .init ∧ s.dev = .absent ∧ s.draws.allocOk = true ∧ s' = (s.setDevice (.present initialDevice)).answer none) ∨
    (∃ d, i = .init ∧ s.dev = .present d ∧ s' = s.mark.answer none) ∨
    (∃ d, i = .close ∧ s.dev = .present d ∧ s' = ((teardown d s).2.setDevice .absent).answer none) ∨
    (∃ d, i = .firePulse ∧ s.dev = .present d ∧ d.pulseDeadline = some s.now ∧
      s' = (rejoin (pulseCallback d s)).answer none) ∨
    (∃ d, i = .fireTimeout ∧ s.dev = .present d ∧ d.timeoutDeadline = some s.now ∧
      s' = (rejoin (timeoutCallback d s)).answer none) ∨
    (∃ delta, i = .advance delta ∧ advanceEnabled s delta = true ∧ s' = (s.addTime delta).answer none) := by
  cases i with
  | rdData => left; cases h; exact ⟨_, rfl, by simp⟩
  | rdControl => left; cases h; exact ⟨_, rfl, by simp⟩
  | rdStatus =>
    left
    simp only [exec, execRdStatus] at h
    split at h
    all_goals cases h; exact ⟨_, rfl, by simp⟩
  | wrData v =>
    simp only [exec, execWrData] at h
    split at h
    · left; rename_i hd; cases h; exact ⟨_, rfl, by simp [hd]⟩
    · right; left; rename_i d hd; cases h; exact ⟨v, d, rfl, hd, rfl⟩
  | wrControl v =>
    simp only [exec, execWrControl] at h
    split at h
    · left; rename_i hd; cases h; exact ⟨_, rfl, by simp [hd]⟩
    · right; right; left
      rename_i d hd
      split at h
      · rename_i r hr; cases h; exact ⟨v, d, r, rfl, hd, hr, rfl⟩
      · cases h
  | init =>
    simp only [exec, execInit] at h
    split at h
    · rename_i hd
      cases h
      cases ha : s.draws.allocOk with
      | true => right; right; right; left; exact ⟨rfl, hd, rfl, rfl⟩
      | false => left; exact ⟨none, by simp, by simp [hd]⟩
    · rename_i d hd
      right; right; right; right; left
      cases h; exact ⟨d, rfl, hd, rfl⟩
  | close =>
    simp only [exec, execClose] at h
    split at h
    · left; rename_i hd; cases h; exact ⟨_, rfl, by simp [hd]⟩
    · rename_i d hd
      right; right; right; right; right; left
      cases h; exact ⟨d, rfl, hd, rfl⟩
  | firePulse =>
    simp only [exec, execFirePulse] at h
    split at h
    · cases h
    · rename_i d hd
      split at h
      · rename_i hp
        right; right; right; right; right; right; left
        cases h; exact ⟨d, rfl, hd, hp, rfl⟩
      · cases h
  | fireTimeout =>
    simp only [exec, execFireTimeout] at h
    split at h
    · cases h
    · rename_i d hd
      split at h
      · rename_i hp
        right; right; right; right; right; right; right; left
        cases h; exact ⟨d, rfl, hd, hp, rfl⟩
      · cases h
  | advance delta =>
    simp only [exec, execAdvance] at h
    split at h
    · rename_i he
      right; right; right; right; right; right; right; right
      cases h; exact ⟨delta, rfl, he, rfl⟩
    · cases h

/-- A CONTROL write of a Present device that gives a next state ran writeControl. -/
theorem exec_wrControl_next {s s' : State} {v : Byte} {d : DeviceState} (h : exec (.wrControl v) s = .next s')
    (hd : s.dev = .present d) : ∃ r, writeControl v d s = some r ∧ s' = (rejoin r).answer none := by
  cases hr : writeControl v d s with
  | none => rw [exec_wrControl_none hd hr] at h; cases h
  | some r => rw [exec_wrControl_some hd hr] at h; cases h; exact ⟨r, rfl, rfl⟩

/-- Everything a step that gives a next state can have done: the head event's word executed, or refused. -/
theorem step_cases {s s' : State} (h : step s = .next s') :
    ∃ e rest, s.trace = e :: rest ∧
      ((∃ i, decodeWord e.word = .ok i ∧ exec i (s.take e.draws rest) = .next s') ∨
       (∃ r, decodeWord e.word = .error r ∧ s' = (s.take e.draws rest).mark.answer none)) := by
  unfold step fetch at h
  cases ht : s.trace with
  | nil => rw [ht] at h; cases h
  | cons e rest =>
    rw [ht] at h
    refine ⟨e, rest, rfl, ?_⟩
    simp only at h
    cases hw : decodeWord e.word with
    | ok i => rw [hw] at h; exact .inl ⟨i, rfl, h⟩
    | error r => rw [hw] at h; cases h; exact .inr ⟨r, rfl, rfl⟩

/-- A step with a legal word at the head of the trace runs that word's operation. -/
theorem step_of_decode {s : State} {e : Event} {rest : List Event} {i : Instr} (ht : s.trace = e :: rest)
    (hi : decodeWord e.word = .ok i) : step s = exec i (s.take e.draws rest) := by
  unfold step fetch
  rw [ht]
  simp only [hi]

/-- No operation of the block is refused by exec: a refused event is a next state with the mark set. -/
theorem exec_not_refused (i : Instr) (s : State) (r : Refusal) : exec i s ≠ .refused r := by
  cases i <;>
    simp only [exec, execRdData, execRdStatus, execRdControl, execWrData, execWrControl, execInit, execClose,
      execFirePulse, execFireTimeout, execAdvance, unsuppliedRead, refuseEvent] <;>
    (try split) <;> (try split) <;> simp

end Sys2Proof.Machine
end

