-- ==== Sys2Proof/Tests/Slice0.lean ====
section
/-! SUPPORT. Tests whose expected results are the spec's own vectors (95_test_vectors.md), and for each statement with
hypotheses a witness that meets them all together, clause by clause. -/

namespace Sys2Proof.Tests

open Sys2Proof Sys2Proof.Machine

/-! ## States -/

/-- The freshly created device with its storage, cursor and CONTROL byte set. -/
def device (control latch : Byte) (buf : Memory) (cursor : Fin (Config.capacity + 1)) : DeviceState :=
  { initialDevice with control := control, dataLatch := latch, buf := buf, cursor := cursor }

/-- The device with an ACK pending and its timers set. -/
def timed (d : DeviceState) (pulse timeout : Option Nat) : DeviceState :=
  { d with ackPending := pulse.isSome, pulseDeadline := pulse, timeoutDeadline := timeout }

/-- 2026-11-11 12:00:00. -/
def noon : WallClock := ⟨2026, 11, 11, 12, 0, 0⟩

/-- FILE0, without USER_DATA_ROOT. -/
def file0 : FileName := "printer/print_20261111_120000.prn".toList

/-- A state with this device at this time; the opens end as `opens` says, under the name FILE0, and reads draw 0x7E. -/
def at_ (now : Nat) (opens : Bool) (d : DeviceState) : State :=
  { State.reset with dev := .present d, now := now, draws := ⟨true, opens, noon, 0x7E#8⟩ }

/-- What a next state shows; none where there is none. -/
def seen {α : Type} (f : State → α) : Host.Outcome State Fault Refusal → Option α
  | .next t => some (f t)
  | .fault _ => none
  | .refused _ => none

/-- One buffered byte 0x41, strobed in at time 0 with the example delays 10 and 1000. -/
def oneByte : DeviceState := timed (device 0x00#8 0x41#8 [(0, 0x41#8)] 1) (some 10) (some 1000)

/-- 4095 buffered bytes of zero, the strobe line high, 0x5A latched. -/
def nearlyFull : DeviceState := device 0x01#8 0x5A#8 [] ⟨4095, by decide⟩

/-- A device with FILE0 open. -/
def withFile (d : DeviceState) : DeviceState := { d with outputFile := some file0 }

/-- A state in which FILE0 holds the byte 0x47. -/
def holding (s : State) : State := { s with fs := [(file0, [0x47#8])] }

/-! ## WellFormed -/

/-- The one check of WellFormed refuses an ill-formed term: delta has 14 bits (R77). -/
theorem test_wellFormed_refuses_long_advance : Instr.wellFormed (.advance 16384) = false := by decide

theorem test_wellFormed_admits_longest_advance : Instr.wellFormed (.advance 16383) = true := by decide

/-! ## Decoder: the words of 95_test_vectors 2.1, bit by bit (K, Z, A, D) -/

theorem test_decode_rdData : decodeTableWord 16 0b0000000000000000 = some .rdData := by decide
theorem test_decode_rdStatus : decodeTableWord 16 0b0000000100000000 = some .rdStatus := by decide
theorem test_decode_rdControl : decodeTableWord 16 0b0000001000000000 = some .rdControl := by decide
theorem test_decode_wrData : decodeTableWord 16 0b0100000011111111 = some (.wrData 0xFF#8) := by decide
theorem test_decode_wrControl : decodeTableWord 16 0b0100001010100101 = some (.wrControl 0xA5#8) := by decide
theorem test_decode_init : decodeTableWord 16 0b1000000000000000 = some .init := by decide
theorem test_decode_close : decodeTableWord 16 0b1000000100000000 = some .close := by decide
theorem test_decode_firePulse : decodeTableWord 16 0b1000001000000000 = some .firePulse := by decide
theorem test_decode_fireTimeout : decodeTableWord 16 0b1000001100000000 = some .fireTimeout := by decide
theorem test_decode_advance : decodeTableWord 16 0b1100001111011110 = some (.advance 990) := by decide
theorem test_decode_longest_advance : decodeTableWord 16 0b1111111111111111 = some (.advance 16383) := by decide

/-- The reserved words of 2.1, each with its class of R81. -/
theorem test_decode_reserved :
    decodeWord 0x0101#16 = .error .readWithData ∧ decodeWord 0x0300#16 = .error .readNoRegister ∧
    decodeWord 0x4100#16 = .error .statusWrite ∧ decodeWord 0x4300#16 = .error .writeNoRegister ∧
    decodeWord 0x4400#16 = .error .highBits ∧ decodeWord 0x7E41#16 = .error .highBits ∧
    decodeWord 0x8001#16 = .error .eventWithData ∧ decodeWord 0x8400#16 = .error .highBits :=
  ⟨rfl, rfl, rfl, rfl, rfl, rfl, rfl, rfl⟩

/-! ## Flags and names -/

/-- The edges of 95_test_vectors 2.3: old, written, RESET edge, STROBE edge. -/
theorem test_control_edges :
    ([(0x00, 0x00, false, false), (0x00, 0x01, false, false), (0x00, 0x04, true, false), (0x00, 0x05, true, false),
      (0x01, 0x00, false, true), (0x01, 0x01, false, false), (0x01, 0x04, true, true), (0x01, 0x05, true, false),
      (0x04, 0x00, false, false), (0x04, 0x01, false, false), (0x04, 0x04, false, false), (0x04, 0x05, false, false),
      (0x05, 0x00, false, true), (0x05, 0x01, false, false), (0x05, 0x04, false, true), (0x05, 0x05, false, false),
      (0x00, 0xF0, false, false), (0xF1, 0xF0, false, true)] : List (Byte × Byte × Bool × Bool)).all
        (fun (old, v, reset, strobe) => resetEdge old v == reset && strobeEdge old v == strobe) = true := by decide

/-- The status bytes of the spec's example parameters STATUS_FIXED = 0x98 and ACK_BIT = 6 (95_test_vectors 2.6). -/
theorem test_statusByte_example :
    statusByte 0x98#8 (1#8 <<< 6) false = 0xD8#8 ∧ statusByte 0x98#8 (1#8 <<< 6) true = 0x98#8 := by decide

/-- FILE0 of 95_test_vectors is the name of its stamp. -/
theorem test_fileName_of_stamp : fileName noon = file0 := by decide

/-! ## One step of each operation -/

/-- RD_DATA returns the draw, not the latch (2.6). -/
theorem test_rdData : exec .rdData (at_ 0 true oneByte) = .next { at_ 0 true oneByte with ret := some 0x7E#8 } := rfl

theorem test_rdControl :
    exec .rdControl (at_ 0 true oneByte) = .next { at_ 0 true oneByte with ret := some 0x7E#8 } := rfl

/-- RD_STATUS with the ACK active: STATUS_FIXED, and nothing changes (2.6). -/
theorem test_rdStatus_ack_active :
    exec .rdStatus (at_ 0 true oneByte) = .next { at_ 0 true oneByte with ret := some (Config.statusFixed ||| 0x00#8) } := rfl

/-- RD_STATUS on an Absent device: the draw (2.6). -/
theorem test_rdStatus_absent :
    exec .rdStatus { at_ 0 true oneByte with dev := .absent } =
      .next { at_ 0 true oneByte with dev := .absent, ret := some 0x7E#8 } := rfl

/-- WR_DATA while an ACK is pending: only the latch changes (2.2). -/
theorem test_wrData :
    exec (.wrData 0x42#8) (at_ 0 true oneByte) = .next (at_ 0 true { oneByte with dataLatch := 0x42#8 }) := rfl

/-- WR_CONTROL, the example of R89. -/
theorem test_wrControl_strobe :
    exec (.wrControl 0x00#8) (at_ 0 true (device 0x01#8 0x41#8 [] 0)) =
      .next (at_ 0 true (timed (device 0x00#8 0x41#8 [(0, 0x41#8)] 1)
        (some (0 + Config.pulseDelay)) (some (0 + Config.timeoutDelay)))) := rfl

/-- WR_CONTROL, a RESET edge during a job: ACK and timers cleared, the byte stays, no event (2.3). -/
theorem test_wrControl_reset :
    exec (.wrControl 0x04#8) (at_ 5 true { oneByte with selected := true }) =
      .next (at_ 5 true (device 0x04#8 0x41#8 [(0, 0x41#8)] 1)) := rfl

/-- INIT on an Absent device whose allocation succeeds: the values of R36 (2.8). -/
theorem test_init_absent :
    exec .init State.reset = .next { State.reset with dev := .present (device 0x00#8 0x00#8 [] 0) } := rfl

/-- INIT on a Present device: the mark, and nothing else (2.8). -/
theorem test_init_present :
    exec .init (at_ 0 true oneByte) = .next { at_ 0 true oneByte with refused := true } := rfl

/-- CLOSE with a byte buffered and an ACK pending: opened, written, closed, no Irq (2.8). -/
theorem test_close_lazy_open :
    seen (fun t => (t.dev, t.fs, t.out)) (exec .close (at_ 5 true oneByte)) =
      some (.absent, [(file0, [0x41#8])], [.sinkOpen file0, .sinkWrite [0x41#8], .sinkClose file0]) := by decide

/-- CLOSE with a byte buffered and an open that fails: the byte is lost (2.8). -/
theorem test_close_failed_open :
    seen (fun t => (t.dev, t.fs, t.out)) (exec .close (at_ 5 false oneByte)) =
      some (.absent, [], [.diag .openFailed]) := by decide

/-- FIRE_PULSE when due (2.7). -/
theorem test_firePulse_due :
    exec .firePulse (at_ 10 true oneByte) =
      .next { at_ 10 true { oneByte with ackPending := false, pulseDeadline := none } with out := [.irq] } := rfl

/-- FIRE_PULSE before it is due is stuck (2.7). -/
theorem test_firePulse_early : exec .firePulse (at_ 9 true oneByte) = .fault .pulseNotDue := rfl

/-- FIRE_TIMEOUT with two bytes buffered and FILE0 open, holding 0x47 (2.5). -/
theorem test_fireTimeout_appends :
    seen (fun t => (t.fs, t.out, t.dev.buffered))
        (exec .fireTimeout (holding (at_ 7 true (timed (withFile (device 0x00#8 0x49#8 [(0, 0x48#8), (1, 0x49#8)] 2))
          none (some 7))))) =
      some ([(file0, [0x47#8, 0x48#8, 0x49#8])], [.sinkWrite [0x48#8, 0x49#8], .sinkClose file0], []) := by decide

/-- FIRE_TIMEOUT with a byte buffered and no file open, in a file system that holds FILE0 (2.5). -/
theorem test_fireTimeout_opens_existing :
    seen (fun t => (t.fs, t.out))
        (exec .fireTimeout { at_ 1000 true (timed oneByte none (some 1000)) with fs := [(file0, [0x10#8])] }) =
      some ([(file0, [0x10#8, 0x41#8])], [.sinkOpen file0, .sinkWrite [0x41#8], .sinkClose file0]) := by decide

/-- ADVANCE onto a deadline is enabled (2.7). -/
theorem test_advance_to_deadline : exec (.advance 10) (at_ 0 true oneByte) = .next (at_ 10 true oneByte) := rfl

/-- ADVANCE past a deadline is stuck (2.7). -/
theorem test_advance_past_deadline : exec (.advance 11) (at_ 0 true oneByte) = .fault .pastDeadline := rfl

/-! ## The step, and the assembler -/

/-- The word `init` put where the step fetches runs INIT as the first operation after reset. -/
theorem test_step_runs_fetched_word :
    step (State.reset.withFetchWord 16 0x8000) = .next { State.reset with dev := .present initialDevice } := rfl

/-- A reserved word sets the mark (R81). -/
theorem test_step_refuses_reserved :
    step (State.reset.withFetchWord 16 0x4100) = .next { State.reset with refused := true } := rfl

/-- `send 0x41, 0x00` of program P1, with a comment. -/
theorem test_assemble_send :
    assemble ["send 0x41, 0x00 # P1".toList, "adv 990".toList] = some [0x4041#16, 0x4201#16, 0x4200#16, 0xC3DE#16] := by
  decide

/-- The assembler rejects an operand out of range (R84). -/
theorem test_assemble_rejects_long_advance : assembleLine "adv 16384".toList = none := by decide

/-! ## Witnesses: the hypotheses of each statement, met together -/

/-- A state that meets the invariant, with a byte buffered and both timers armed, the pulse timer due. -/
theorem inv_due : (at_ 10 true (timed (device 0x01#8 0x41#8 [(0, 0x41#8)] 1) (some 10) (some 10))).Inv := by
  refine ⟨by decide, ?_, fun h => nomatch h⟩
  intro d hd
  cases hd
  refine ⟨by decide, by decide, rfl, ?_, ?_, (fun n h => nomatch h), rfl, rfl, rfl, rfl⟩
  · intro t ht
    cases ht
    exact ⟨Nat.le_refl _, Nat.le_add_right _ _⟩
  · intro t ht
    cases ht
    exact ⟨Nat.le_refl _, Nat.le_add_right _ _⟩

theorem witness_InitCreatesZeroedDevice :
    State.reset.dev = .absent ∧ State.reset.draws.allocOk = true ∧
    ({ State.reset with draws := ⟨false, true, noon, 0x00#8⟩ } : State).dev = .absent ∧
    ({ State.reset with draws := ⟨false, true, noon, 0x00#8⟩ } : State).draws.allocOk = false := ⟨rfl, rfl, rfl, rfl⟩

theorem witness_AbsentDeviceIgnoresHost : State.reset.dev = .absent := rfl

/-- With and without an open file that the output trace leaves open. -/
theorem witness_CloseReleasesDevice :
    (at_ 5 true oneByte).dev = .present oneByte ∧ openInLog (at_ 5 true oneByte).out = oneByte.outputFile ∧
    openInLog ({ at_ 5 true (withFile oneByte) with out := [.sinkOpen file0] } : State).out =
      (withFile oneByte).outputFile := by decide

theorem witness_WriteDataOnlyLatches : (at_ 0 true oneByte).dev = .present oneByte := rfl

theorem witness_ReadsOnPresentDevice : (at_ 0 true oneByte).dev = .present oneByte := rfl

theorem witness_StatusBitsOfRead : (at_ 0 true oneByte).dev = .present oneByte := rfl

theorem witness_RepeatedAccessAddsNothing :
    (∃ d, (at_ 0 true oneByte).dev = .present d) ∧ (∃ t, exec .rdStatus (at_ 0 true oneByte) = .next t) ∧
    (∃ t, exec (.wrData 0x42#8) (at_ 0 true oneByte) = .next t) ∧
    (∃ t d', exec (.wrControl 0x0C#8) (at_ 0 true oneByte) = .next t ∧ t.dev = .present d') :=
  ⟨⟨_, rfl⟩, ⟨_, rfl⟩, ⟨_, rfl⟩, ⟨_, _, rfl, rfl⟩⟩

/-- A repeated value, and a write in which bit 0 rises and bit 2 falls. -/
theorem witness_ControlWriteWithoutEdge :
    ((at_ 0 true (device 0x05#8 0x41#8 [] 0)).dev = .present (device 0x05#8 0x41#8 [] 0) ∧
      (bit 0x05#8 2 = true → bit 0x05#8 2 = true) ∧ (bit 0x05#8 0 = true → bit 0x05#8 0 = true)) ∧
    ((at_ 0 true (device 0x04#8 0x41#8 [] 0)).dev = .present (device 0x04#8 0x41#8 [] 0) ∧
      (bit 0x09#8 2 = true → bit 0x04#8 2 = true) ∧ (bit 0x04#8 0 = true → bit 0x09#8 0 = true)) := by decide

theorem witness_ControlWriteFlags :
    ∃ t d', exec (.wrControl 0x0C#8) (at_ 0 true oneByte) = .next t ∧ t.dev = .present d' := ⟨_, _, rfl, rfl⟩

theorem witness_UpperControlBitsOnlyStored :
    (∀ i, i < 4 → bit 0xF1#8 i = bit 0x01#8 i) ∧
    ∃ t d', exec (.wrControl 0xF1#8) (at_ 0 true oneByte) = .next t ∧ t.dev = .present d' :=
  ⟨by decide, _, _, rfl, rfl⟩

/-- Bit 0 low before the write, and high before and after it. -/
theorem witness_ResetEdgeCancelsHandshake :
    ((at_ 0 true (device 0x00#8 0x41#8 [] 0)).dev = .present (device 0x00#8 0x41#8 [] 0) ∧ bit 0x04#8 2 = true ∧
      bit 0x00#8 2 = false ∧ (bit 0x00#8 0 = true → bit 0x04#8 0 = true)) ∧
    ((at_ 0 true (device 0x01#8 0x41#8 [] 0)).dev = .present (device 0x01#8 0x41#8 [] 0) ∧ bit 0x05#8 2 = true ∧
      bit 0x01#8 2 = false ∧ (bit 0x01#8 0 = true → bit 0x05#8 0 = true)) := by decide

/-- An empty buffer, and the last cursor at which the byte does not fill it. -/
theorem witness_StrobeAcceptsLatchedByte :
    ∀ c : Fin (Config.capacity + 1), c.val = 0 ∨ c.val = 4094 →
      (at_ 0 true (device 0x01#8 0x41#8 [] c)).dev = .present (device 0x01#8 0x41#8 [] c) ∧
      Memory.wf (device 0x01#8 0x41#8 [] c).buf ∧ bit 0x00#8 0 = false ∧
      bit (device 0x01#8 0x41#8 [] c).control 0 = true ∧ bit 0x00#8 2 = false ∧
      (device 0x01#8 0x41#8 [] c).cursor.val + 1 < Config.capacity := by
  intro c hc
  exact ⟨rfl, show Memory.wf [] by decide, rfl, (show bit 0x01#8 0 = true by decide), rfl,
    show c.val + 1 < 4096 by omega⟩

/-- An empty buffer, and the byte that fills the buffer: the cursors 0 and 4095. -/
theorem witness_ResetAndStrobeInOneWrite :
    ∀ c : Fin (Config.capacity + 1), c.val = 0 ∨ c.val = 4095 →
      (at_ 0 true (device 0x01#8 0x41#8 [] c)).dev = .present (device 0x01#8 0x41#8 [] c) ∧
      bit 0x04#8 2 = true ∧ bit (device 0x01#8 0x41#8 [] c).control 2 = false ∧ bit 0x04#8 0 = false ∧
      bit (device 0x01#8 0x41#8 [] c).control 0 = true ∧ (device 0x01#8 0x41#8 [] c).cursor.val < Config.capacity := by
  intro c hc
  exact ⟨rfl, by decide, (show bit 0x01#8 2 = false by decide), by decide, (show bit 0x01#8 0 = true by decide),
    show c.val < 4096 by omega⟩

theorem witness_BufferFullWritesOpenFile :
    (holding (at_ 50 true (withFile nearlyFull))).dev = .present (withFile nearlyFull) ∧ Memory.wf nearlyFull.buf ∧
    FileSystem.wf (holding (at_ 50 true (withFile nearlyFull))).fs ∧ bit 0x00#8 0 = false ∧
    bit nearlyFull.control 0 = true ∧ nearlyFull.cursor.val + 1 = Config.capacity ∧
    (withFile nearlyFull).outputFile = some file0 ∧
    FileSystem.content (holding (at_ 50 true (withFile nearlyFull))).fs file0 = some [0x47#8] :=
  ⟨rfl, by decide, by decide, rfl, rfl, rfl, rfl, by decide⟩

theorem witness_BufferFullOpensFile :
    (at_ 50 true nearlyFull).dev = .present nearlyFull ∧ Memory.wf nearlyFull.buf ∧
    FileSystem.wf (at_ 50 true nearlyFull).fs ∧ bit 0x00#8 0 = false ∧ bit nearlyFull.control 0 = true ∧
    nearlyFull.cursor.val + 1 = Config.capacity ∧ nearlyFull.outputFile = none ∧
    (at_ 50 true nearlyFull).draws.openOk = true := ⟨rfl, by decide, by decide, rfl, rfl, rfl, rfl, rfl⟩

theorem witness_BufferFullFailedOpen :
    (at_ 50 false nearlyFull).dev = .present nearlyFull ∧ bit 0x00#8 0 = false ∧ bit nearlyFull.control 0 = true ∧
    nearlyFull.cursor.val + 1 = Config.capacity ∧ nearlyFull.outputFile = none ∧
    (at_ 50 false nearlyFull).draws.openOk = false := ⟨rfl, rfl, rfl, rfl, rfl, rfl⟩

/-- With a file open, and with none and an open that succeeds or fails. -/
theorem witness_CapacityBytesFlushOnce :
    (List.replicate 4096 0x55#8).length = Config.capacity ∧ Memory.wf (device 0x00#8 0x00#8 [] 0).buf ∧
    (device 0x00#8 0x00#8 [] 0).cursor.val = 0 ∧
    (at_ 0 true (withFile (device 0x00#8 0x00#8 [] 0))).dev = .present (withFile (device 0x00#8 0x00#8 [] 0)) ∧
    (withFile (device 0x00#8 0x00#8 [] 0)).outputFile = some file0 ∧
    (∀ o ∈ [true, false], (at_ 0 o (device 0x00#8 0x00#8 [] 0)).dev = .present (device 0x00#8 0x00#8 [] 0) ∧
      (device 0x00#8 0x00#8 [] 0).outputFile = none ∧ (at_ 0 o (device 0x00#8 0x00#8 [] 0)).draws.openOk = o) :=
  ⟨List.length_replicate, by decide⟩

/-- The device of the job-end witnesses: one byte buffered, the timeout due at 1000. -/
def ending : DeviceState := timed oneByte none (some 1000)

/-- Both operations that end a job, close and the due timeout fire. -/
theorem endsJob_ending (d : DeviceState) (h : d.timeoutDeadline = some 1000) (o : Bool) :
    endsJob .close d (at_ 1000 o d) ∧ endsJob .fireTimeout d (at_ 1000 o d) := ⟨.inl rfl, .inr ⟨rfl, h⟩⟩

theorem witness_JobEndWritesOpenFile :
    endsJob .close (withFile ending) (holding (at_ 1000 true (withFile ending))) ∧
    endsJob .fireTimeout (withFile ending) (holding (at_ 1000 true (withFile ending))) ∧
    (holding (at_ 1000 true (withFile ending))).dev = .present (withFile ending) ∧
    FileSystem.wf (holding (at_ 1000 true (withFile ending))).fs ∧ (withFile ending).cursor.val ≠ 0 ∧
    (withFile ending).outputFile = some file0 ∧
    FileSystem.content (holding (at_ 1000 true (withFile ending))).fs file0 = some [0x47#8] :=
  ⟨.inl rfl, .inr ⟨rfl, rfl⟩, by decide⟩

theorem witness_JobEndOpensFileLazily :
    (endsJob .close ending (at_ 1000 true ending) ∧ endsJob .fireTimeout ending (at_ 1000 true ending)) ∧
    (at_ 1000 true ending).dev = .present ending ∧ FileSystem.wf (at_ 1000 true ending).fs ∧ ending.cursor.val ≠ 0 ∧
    ending.outputFile = none ∧ (at_ 1000 true ending).draws.openOk = true :=
  ⟨endsJob_ending ending rfl true, by decide⟩

theorem witness_JobEndFailedOpenDropsBytes :
    (endsJob .close ending (at_ 1000 false ending) ∧ endsJob .fireTimeout ending (at_ 1000 false ending)) ∧
    (at_ 1000 false ending).dev = .present ending ∧ ending.cursor.val ≠ 0 ∧ ending.outputFile = none ∧
    (at_ 1000 false ending).draws.openOk = false :=
  ⟨endsJob_ending ending rfl false, by decide⟩

/-- With and without an open file. -/
theorem witness_JobEndWithEmptyBuffer :
    ∀ f ∈ [none, some file0],
      (endsJob .close { ending with cursor := 0, outputFile := f }
          (at_ 1000 true { ending with cursor := 0, outputFile := f }) ∧
        endsJob .fireTimeout { ending with cursor := 0, outputFile := f }
          (at_ 1000 true { ending with cursor := 0, outputFile := f })) ∧
      ({ ending with cursor := 0, outputFile := f } : DeviceState).cursor.val = 0 := by
  intro f _
  exact ⟨endsJob_ending _ rfl true, rfl⟩

theorem witness_TimeoutFireDevice :
    (at_ 1000 true ending).dev = .present ending ∧ ending.timeoutDeadline = some (at_ 1000 true ending).now :=
  ⟨rfl, rfl⟩

/-- Exactly up to the nearer deadline, and one tick past it. -/
theorem witness_AdvanceUpToDeadlines :
    (∀ d x, (at_ 0 true oneByte).dev = .present d → (d.pulseDeadline = some x ∨ d.timeoutDeadline = some x) →
      (at_ 0 true oneByte).now + 10 ≤ x) ∧
    (∃ d x, (at_ 0 true oneByte).dev = .present d ∧ (d.pulseDeadline = some x ∨ d.timeoutDeadline = some x) ∧
      x < (at_ 0 true oneByte).now + 11) := by
  refine ⟨?_, oneByte, 10, rfl, .inl rfl, by decide⟩
  intro d x hd hx
  cases hd
  rcases hx with hx | hx <;> cases hx <;> decide

/-- Each of the two timers due. -/
theorem witness_DueTimerBlocksOnlyTime :
    (at_ 10 true (timed (device 0x01#8 0x41#8 [(0, 0x41#8)] 1) (some 10) (some 10))).Inv ∧
    (timed (device 0x01#8 0x41#8 [(0, 0x41#8)] 1) (some 10) (some 10)).pulseDeadline = some 10 ∧
    (timed (device 0x01#8 0x41#8 [(0, 0x41#8)] 1) (some 10) (some 10)).timeoutDeadline = some 10 ∧ 0 < 1 :=
  ⟨inv_due, rfl, rfl, by decide⟩

/-- With the ACK pending, and without it (a state that no run reaches). -/
theorem witness_PulseFireEndsAck :
    ∀ a ∈ [true, false], (at_ 10 true { oneByte with ackPending := a }).dev = .present { oneByte with ackPending := a } ∧
      ({ oneByte with ackPending := a } : DeviceState).pulseDeadline =
        some (at_ 10 true { oneByte with ackPending := a }).now := fun _ _ => ⟨rfl, rfl⟩

/-- Absent, and Present one tick early. -/
theorem witness_FireStuckUnlessDue :
    (∀ d, State.reset.dev = .present d → d.pulseDeadline ≠ some State.reset.now ∧ d.timeoutDeadline ≠ some 0) ∧
    (∀ d, (at_ 9 true oneByte).dev = .present d → d.pulseDeadline ≠ some 9) ∧
    (∀ d, (at_ 999 true oneByte).dev = .present d → d.timeoutDeadline ≠ some 999) := by
  refine ⟨(fun d hd => nomatch hd), ?_, ?_⟩ <;> intro d hd <;> cases hd <;> decide

theorem witness_StrobeAtTimeoutEitherOrder :
    (at_ 1000 true { ending with control := 0x01#8 }).dev = .present { ending with control := 0x01#8 } ∧
    Memory.wf ending.buf ∧ ending.timeoutDeadline = some 1000 ∧ bit 0x00#8 0 = false ∧ bit 0x01#8 0 = true ∧
    ending.cursor.val + 1 < Config.capacity := by decide

theorem witness_TimerFiresCommute :
    (at_ 1000 true (timed oneByte (some 1000) (some 1000))).dev = .present (timed oneByte (some 1000) (some 1000)) ∧
    (timed oneByte (some 1000) (some 1000)).pulseDeadline = some 1000 ∧
    (timed oneByte (some 1000) (some 1000)).timeoutDeadline = some 1000 := by decide

theorem witness_OnlyAdvanceMovesClock :
    (∃ t, exec (.advance 10) (at_ 0 true oneByte) = .next t) ∧
    ∃ t, step ((at_ 0 true oneByte).withFetchWord 16 0xC00A) = .next t := ⟨⟨_, rfl⟩, ⟨_, rfl⟩⟩

theorem witness_OnlyPulseFireEmitsIrq :
    (∃ t, exec .firePulse (at_ 10 true oneByte) = .next t) ∧ ∃ t, exec .close (at_ 5 true oneByte) = .next t :=
  ⟨⟨_, rfl⟩, ⟨_, rfl⟩⟩

/-- A flush with a file to open at a strobe, and at a close. -/
theorem witness_OutputOrderOfOneStep :
    (∃ t, exec (.wrControl 0x00#8) (at_ 50 true nearlyFull) = .next t) ∧
    ∃ t, exec .close (at_ 5 true oneByte) = .next t := ⟨⟨_, rfl⟩, ⟨_, rfl⟩⟩

/-- A strobe arms both timers, a RESET edge disarms both, and each fire disarms its own. -/
theorem witness_TimersArmedAndDisarmedOnlyBy :
    (∃ t d' x, exec (.wrControl 0x00#8) (at_ 0 true (device 0x01#8 0x41#8 [] 0)) = .next t ∧ t.dev = .present d' ∧
      d'.pulseDeadline = some x) ∧
    (∃ t d', exec (.wrControl 0x04#8) (at_ 5 true oneByte) = .next t ∧ t.dev = .present d' ∧
      oneByte.pulseDeadline ≠ none ∧ d'.pulseDeadline = none ∧ d'.timeoutDeadline = none) ∧
    (∃ t d', exec .firePulse (at_ 10 true oneByte) = .next t ∧ t.dev = .present d' ∧ d'.pulseDeadline = none) :=
  ⟨⟨_, _, _, rfl, rfl, rfl⟩, ⟨_, _, rfl, rfl, by decide, rfl, rfl⟩, ⟨_, _, rfl, rfl, rfl⟩⟩

theorem witness_AckPendingSetAndClearedOnlyBy :
    (∃ t d', exec (.wrControl 0x00#8) (at_ 0 true (device 0x01#8 0x41#8 [] 0)) = .next t ∧ t.dev = .present d' ∧
      (device 0x01#8 0x41#8 [] 0).ackPending = false ∧ d'.ackPending = true) ∧
    (∃ t d', exec .firePulse (at_ 10 true oneByte) = .next t ∧ t.dev = .present d' ∧ oneByte.ackPending = true ∧
      d'.ackPending = false) := ⟨⟨_, _, rfl, rfl, rfl, rfl⟩, ⟨_, _, rfl, rfl, rfl, rfl⟩⟩

/-- An open file that the timeout fire closes, and a file that a full buffer opens. -/
theorem witness_OpenFileLifetime :
    (∃ t d', exec .fireTimeout (at_ 1000 true (withFile ending)) = .next t ∧ t.dev = .present d' ∧
      (withFile ending).outputFile = some file0) ∧
    (∃ t d', exec (.wrControl 0x00#8) (at_ 50 true nearlyFull) = .next t ∧ t.dev = .present d' ∧
      nearlyFull.outputFile = none ∧ d'.outputFile = some (fileName noon)) :=
  ⟨⟨_, _, rfl, rfl, rfl⟩, ⟨_, _, rfl, rfl, rfl, rfl⟩⟩

/-- A reserved word, INIT on a Present device, and a word that leaves the mark clear. -/
theorem witness_RefusalMarkSetOnlyByRefusals :
    ∀ w ∈ [0x4100, 0x8000, 0x4041], ∃ t, step ((at_ 0 true oneByte).withFetchWord 16 w) = .next t := by
  intro w hw
  simp only [List.mem_cons, List.not_mem_nil, or_false] at hw
  rcases hw with rfl | rfl | rfl <;> exact ⟨_, rfl⟩

/-- Each of the three errors met. -/
theorem witness_ErrorEffects :
    (errorOf .init { State.reset with draws := ⟨false, true, noon, 0x00#8⟩ } = some .allocFailed ∧
      ∃ t, exec .init { State.reset with draws := ⟨false, true, noon, 0x00#8⟩ } = .next t) ∧
    (errorOf (.wrControl 0x00#8) (at_ 50 false nearlyFull) = some .openFailed ∧
      ∃ t, exec (.wrControl 0x00#8) (at_ 50 false nearlyFull) = .next t) ∧
    (errorOf .close State.reset = some .nullHandle ∧ ∃ t, exec .close State.reset = .next t) :=
  ⟨⟨rfl, _, rfl⟩, ⟨rfl, _, rfl⟩, ⟨rfl, _, rfl⟩⟩

theorem witness_FrameReadsAndDataWrite :
    (at_ 0 true oneByte).dev = .present oneByte ∧ State.reset.dev = .absent ∧
    (∃ t, exec (.wrData 0x42#8) (at_ 0 true oneByte) = .next t) ∧ ∃ t, exec .rdStatus State.reset = .next t :=
  ⟨rfl, rfl, ⟨_, rfl⟩, ⟨_, rfl⟩⟩

/-- A strobe that fills the buffer, a write without an edge, and a write on an Absent device. -/
theorem witness_FrameControlWrite :
    (Memory.wf nearlyFull.buf ∧ FileSystem.wf (at_ 50 true nearlyFull).fs ∧ strobeEdge nearlyFull.control 0x00#8 = true ∧
      ∃ t, exec (.wrControl 0x00#8) (at_ 50 true nearlyFull) = .next t) ∧
    (strobeEdge nearlyFull.control 0x01#8 = false ∧ resetEdge nearlyFull.control 0x01#8 = false ∧
      ∃ t, exec (.wrControl 0x01#8) (at_ 50 true nearlyFull) = .next t) ∧
    (∃ t, exec (.wrControl 0x00#8) State.reset = .next t) :=
  ⟨⟨by decide, by decide, by decide, _, rfl⟩, ⟨by decide, by decide, _, rfl⟩, ⟨_, rfl⟩⟩

theorem witness_FrameTimerFires :
    FileSystem.wf (at_ 1000 true ending).fs ∧ (∃ t, exec .firePulse (at_ 10 true oneByte) = .next t) ∧
    ∃ t, exec .fireTimeout (at_ 1000 true ending) = .next t := ⟨by decide, ⟨_, rfl⟩, ⟨_, rfl⟩⟩

theorem witness_FrameAdvanceInitClose :
    FileSystem.wf (at_ 0 true oneByte).fs ∧ (∃ t, exec .init (at_ 0 true oneByte) = .next t) ∧
    (∃ t, exec .close (at_ 0 true oneByte) = .next t) ∧ ∃ t, exec (.advance 10) (at_ 0 true oneByte) = .next t :=
  ⟨by decide, ⟨_, rfl⟩, ⟨_, rfl⟩, ⟨_, rfl⟩⟩

/-- A strobe without and a close with a failed open, from a state that meets the invariant. -/
theorem witness_StreamConserved :
    (at_ 10 true (timed (device 0x01#8 0x41#8 [(0, 0x41#8)] 1) (some 10) (some 10))).Inv ∧
    (∃ t, exec (.wrControl 0x00#8)
        (at_ 10 true (timed (device 0x01#8 0x41#8 [(0, 0x41#8)] 1) (some 10) (some 10))) = .next t ∧
      failedOpens t.out = failedOpens []) ∧
    (∃ t, exec .close (at_ 5 false oneByte) = .next t ∧ failedOpens t.out ≠ failedOpens []) :=
  ⟨inv_due, ⟨_, rfl, by decide⟩, ⟨_, rfl, by decide⟩⟩

theorem witness_FilesGrowByPayloads :
    (at_ 10 true (timed (device 0x01#8 0x41#8 [(0, 0x41#8)] 1) (some 10) (some 10))).Inv ∧
    ∃ t, exec .close (at_ 10 true (timed (device 0x01#8 0x41#8 [(0, 0x41#8)] 1) (some 10) (some 10))) = .next t :=
  ⟨inv_due, _, rfl⟩

/-- Two states that look alike to the host and differ in buffer, open file, file system and opens. -/
theorem witness_HostCannotSeeDataPath :
    hostView (at_ 10 true oneByte) = hostView (holding (at_ 10 false (withFile { oneByte with buf := [], cursor := ⟨4095, by decide⟩ }))) ∧
    (∀ d, (at_ 10 true oneByte).dev = .present d → d.cursor.val < Config.capacity) ∧
    (∀ d, (holding (at_ 10 false (withFile { oneByte with buf := [], cursor := ⟨4095, by decide⟩ }))).dev = .present d →
      d.cursor.val < Config.capacity) ∧
    (at_ 10 true oneByte).draws.allocOk = true ∧ (at_ 10 true oneByte).draws.rdVal = 0x7E#8 := by
  refine ⟨by decide, ?_, ?_, rfl, rfl⟩ <;> intro d hd <;> cases hd <;> decide

theorem witness_StepKeepsInvariant :
    ((at_ 10 true (timed (device 0x01#8 0x41#8 [(0, 0x41#8)] 1) (some 10) (some 10))).withFetchWord 16 0x8200).Inv ∧
    ∃ t, step ((at_ 10 true (timed (device 0x01#8 0x41#8 [(0, 0x41#8)] 1) (some 10) (some 10))).withFetchWord 16 0x8200) =
      .next t := by
  refine ⟨⟨by decide, ?_, fun h => nomatch h⟩, _, rfl⟩
  intro d hd
  obtain ⟨a, b, c, e, f, g, i, j⟩ := inv_due.device d hd
  exact ⟨a, b, c, e, f, g, i, j⟩

theorem witness_RunStartMeetsInvariant : FileSystem.wf [(file0, [0x47#8]), ("z".toList, [])] := by decide

theorem witness_BufferNeverRefusesByte :
    (at_ 10 true (timed (device 0x01#8 0x41#8 [(0, 0x41#8)] 1) (some 10) (some 10))).Inv := inv_due

theorem witness_StepExecutesDecodedEvent :
    (State.reset.withFetchWord 16 0xC00A).trace = [⟨0xC00A#16, Draws.reset⟩] ∧
    decodeWord 0xC00A#16 = .ok (.advance 10) := ⟨rfl, rfl⟩

theorem witness_RefusedEventOnlySetsMark :
    (State.reset.withFetchWord 16 0x4100).trace = [⟨0x4100#16, Draws.reset⟩] ∧
    decodeWord 0x4100#16 = .error .statusWrite ∧ (at_ 0 true oneByte).dev = .present oneByte := ⟨rfl, rfl, rfl⟩

theorem witness_DecodeOfEncode :
    ∀ i ∈ [Instr.rdData, .wrData 0xFF#8, .init, .advance 0, .advance 16383], i.wellFormed = true := by decide

theorem witness_EncodeOfDecode :
    decodeWord 0x42A5#16 = .ok (.wrControl 0xA5#8) ∧ decodeWord 0xFFFF#16 = .ok (.advance 16383) := ⟨rfl, rfl⟩

/-- An empty buffer, and the last cursor at which the byte does not fill it. -/
theorem witness_SendAcceptsByte :
    ∀ c : Fin (Config.capacity + 1), c.val = 0 ∨ c.val = 4094 →
      (at_ 0 true (device 0x05#8 0x41#8 [] c)).dev = .present (device 0x05#8 0x41#8 [] c) ∧
      Memory.wf (device 0x05#8 0x41#8 [] c).buf ∧
      (device 0x05#8 0x41#8 [] c).cursor.val + 1 < Config.capacity := by
  intro c hc
  exact ⟨rfl, show Memory.wf [] by decide, show c.val + 1 < 4096 by omega⟩

/-- The second clause with the timeout disarmed, and with it due in the very same instant as the pulse. -/
theorem witness_ResetAndAckExpansions :
    bit oneByte.control 0 = false ∧
    ∀ x ∈ [none, some (0 + Config.pulseDelay)],
      (timed oneByte (some (0 + Config.pulseDelay)) x).ackPending = true ∧
      (timed oneByte (some (0 + Config.pulseDelay)) x).pulseDeadline = some (0 + Config.pulseDelay) ∧
      ∀ y, (timed oneByte (some (0 + Config.pulseDelay)) x).timeoutDeadline = some y → 0 + Config.pulseDelay ≤ y := by
  refine ⟨by decide, fun x hx => ⟨rfl, rfl, fun y hy => ?_⟩⟩
  change x = some y at hy
  subst hy
  simp only [List.mem_cons, reduceCtorEq, Option.some.injEq, List.not_mem_nil, or_false, false_or] at hx
  exact Nat.le_of_eq hx.symm

/-- Exactly up to the deadline over more than one word, and one tick past it. -/
theorem witness_AdvLongAdvances :
    advanceEnabled (at_ 0 true (timed oneByte none (some 20000))) 20000 = true ∧
    advanceEnabled (at_ 0 true (timed oneByte none (some 20000))) 20001 = false := by
  constructor <;> simp [advanceEnabled, Device.deadlines, at_, timed, State.reset, State.start]

theorem witness_AssemblerSpellsLegalWords :
    assembleLine "strobe 0x08".toList = some [.wrControl 0x09#8, .wrControl 0x08#8] := by decide

theorem witness_FileNameSpellsStamp : fileName noon = fileName noon := rfl

end Sys2Proof.Tests
end

/-! SUPPORT. The refusal mark through a step, the constants' bounds, and the step on the head event (00_scope.md). -/

namespace Sys2Proof.Machine

/-! ## The shared operations leave the refusal mark alone -/

section
variable (d : DeviceState) (s : State)

@[simp] theorem pulseCallback_refused : (pulseCallback d s).2.refused = s.refused := by
  obtain ⟨-, h⟩ | ⟨-, h⟩ := pulseCallback_cases d s <;> rw [h]
  rfl

@[simp] theorem timeoutCallback_refused : (timeoutCallback d s).2.refused = s.refused := by
  rw [timeoutCallback_state, endJob_refused]

@[simp] theorem teardown_refused : (teardown d s).2.refused = s.refused := by
  rw [teardown_state, endJob_refused]

end

theorem writeControl_refused {v : Byte} {d : DeviceState} {s : State} {r : DeviceState × State}
    (h : writeControl v d s = some r) : r.2.refused = s.refused := by
  obtain ⟨-, rfl⟩ | ⟨-, a, ha, rfl⟩ := writeControl_some d s h
  · rfl
  · have hstate := acceptByte_state _ s ha
    exact (congrArg State.refused hstate :)

/-! ## The mark after one operation and one refused event -/

/-- Only INIT on a Present device sets the mark, and no operation clears it (R16, R134). -/
theorem exec_refused_iff {i : Instr} {s t : State} (h : exec i s = .next t) :
    t.refused = true ↔ s.refused = true ∨ (i = .init ∧ s.dev ≠ .absent) := by
  obtain ⟨_, rfl, -, -, -, hidle⟩ | ⟨_, _, rfl, -, rfl⟩ | ⟨_, _, _, rfl, -, hw, rfl⟩ | ⟨rfl, habs, -, rfl⟩ |
    ⟨_, rfl, hd, rfl⟩ | ⟨_, rfl, -, rfl⟩ | ⟨_, rfl, -, -, rfl⟩ | ⟨_, rfl, -, -, rfl⟩ | ⟨_, rfl, -, rfl⟩ :=
    exec_cases h
  · -- an Absent device, or a read
    obtain habs | rfl | rfl | rfl := hidle
    · simp [habs]
    all_goals simp
  · simp
  · simp [writeControl_refused hw]
  · simp [habs]
  · -- INIT on a Present device, the one that marks
    simp [hd]
  all_goals simp

/-- A step with a reserved word at the head of the trace takes the event and sets the mark (R81). -/
theorem step_of_reserved {s : State} {e : Event} {rest : List Event} {r : Reserved} (ht : s.trace = e :: rest)
    (hr : decodeWord e.word = .error r) : step s = .next ((s.take e.draws rest).mark.answer none) := by
  simp only [step, fetch, ht, hr, refuseReserved, refuseEvent]

/-- INIT on a Present device sets the mark (R134). -/
theorem exec_init_present {s : State} {d : DeviceState} (h : s.dev = .present d) :
    exec .init s = .next (s.mark.answer none) := by
  simp only [exec, execInit, h, refuseEvent]

/-! ## The obligations -/

/-- Settles O37: a legal word runs its operation, of which only a second INIT marks; a reserved word always marks. -/
theorem refusalMarkSetOnlyByRefusals : Obligations.RefusalMarkSetOnlyByRefusals := by
  intro s t e rest ht h
  cases hw : decodeWord e.word with
  | ok i =>
    rw [step_of_decode ht hw] at h
    simpa using exec_refused_iff h
  | error r =>
    rw [step_of_reserved ht hw] at h
    cases h
    simp

/-- Settles O2: the delays are successors, and STATUS_FIXED masks ACK_BIT out. -/
theorem parameterBoundsHold : Obligations.ParameterBoundsHold := by
  refine ⟨Nat.succ_pos _, Nat.succ_pos _, ?_⟩
  have hmask : Config.ackMask.getLsbD Config.ackBit.val = true := by simp [ackMask_bit]
  rw [Config.statusFixed, BitVec.getLsbD_and, BitVec.getLsbD_not, hmask]
  simp

/-- Settles O49: this is `step_of_decode`, with the taking of the event written out. -/
theorem stepExecutesDecodedEvent : Obligations.StepExecutesDecodedEvent :=
  fun _ _ _ _ ht hi => step_of_decode ht hi

/-- Settles O50: both refusals mark and answer nothing. -/
theorem refusedEventOnlySetsMark : Obligations.RefusedEventOnlySetsMark :=
  ⟨fun _ _ _ _ ht hr => step_of_reserved ht hr, fun _ _ hd => exec_init_present hd⟩

end Sys2Proof.Machine

/-! SUPPORT. STATUS, the flags a CONTROL write leaves, the lifetime of the open file, and the invariant through a step
(10_state.md). -/

namespace Sys2Proof.Machine

/-! ## STATUS -/

/-- STATUS bit by bit: the ACK active-low at ACK_BIT, STATUS_FIXED elsewhere (R24). -/
theorem statusValue_bit (d : DeviceState) (i : Fin 8) :
    (statusValue d).getLsbD i.val = if i = Config.ackBit then !d.ackPending else Config.statusFixed.getLsbD i.val := by
  cases hack : d.ackPending with
  | true =>
    obtain ⟨-, -, hfixed⟩ := parameterBoundsHold
    have hbyte : statusValue d = Config.statusFixed := by simp [statusValue, statusByte, hack]
    rw [hbyte]
    split
    · rename_i hi; rw [hi]; exact hfixed
    · rfl
  | false =>
    have hbyte : statusValue d = Config.statusFixed ||| Config.ackMask := by simp [statusValue, statusByte, hack]
    rw [hbyte, BitVec.getLsbD_or, ackMask_bit]
    split <;> simp [*]

/-! ## The byte stored at a STROBE edge -/

section
variable (full : DeviceState) (s : State)

/-- Everything the storing of a byte can do after the append. -/
theorem storeByte_cases :
    (full.cursor.val = Config.capacity ∧ storeByte full s = flush full s) ∨
    (full.cursor.val ≠ Config.capacity ∧ storeByte full s = (full, s)) := by
  by_cases h : full.cursor.val = Config.capacity
  · exact .inl ⟨h, if_pos h⟩
  · exact .inr ⟨h, if_neg h⟩

/-- Storing a byte touches only the cursor and the open file of the device. -/
theorem storeByte_device :
    (storeByte full s).1 =
      { full with cursor := (storeByte full s).1.cursor, outputFile := (storeByte full s).1.outputFile } := by
  obtain ⟨-, h⟩ | ⟨-, h⟩ := storeByte_cases full s <;> rw [h]
  exact flush_device full s

@[simp] theorem storeByte_now : (storeByte full s).2.now = s.now := by
  obtain ⟨-, h⟩ | ⟨-, h⟩ := storeByte_cases full s <;> rw [h]
  exact flush_now full s

/-- A stored byte leaves a free slot (I1). -/
theorem storeByte_cursor_lt : (storeByte full s).1.cursor.val < Config.capacity := by
  obtain ⟨-, h⟩ | ⟨hne, h⟩ := storeByte_cases full s <;> rw [h]
  · simp
  · exact Nat.lt_of_le_of_ne (Nat.le_of_lt_succ full.cursor.isLt) hne

end

/-! ## The ACK and the open file after a CONTROL write and a timer fire -/

section
variable {v : Byte} {d : DeviceState} {s : State} {r : DeviceState × State} {n : FileName}

/-- A RESET edge clears the ACK before the STROBE edge; nothing else in the levels touches it (R102). -/
theorem controlLevels_ackPending :
    (controlLevels v d).ackPending = (!resetEdge d.control v && d.ackPending) := by
  cases h : resetEdge d.control v
  · rw [controlLevels_no_reset d h]; rfl
  · rw [controlLevels_reset d h]; rfl

/-- A STROBE edge sets the ACK whatever else the write does, and a RESET edge alone clears it (R97, R101, R102). -/
theorem writeControl_ackPending (h : writeControl v d s = some r) :
    r.1.ackPending = (strobeEdge d.control v || (!resetEdge d.control v && d.ackPending)) := by
  cases hs : strobeEdge d.control v with
  | false =>
    rw [writeControl_no_strobe d s hs] at h
    cases h
    simp [controlLevels_ackPending]
  | true =>
    obtain ⟨full, -, rfl⟩ := writeControl_strobe_eq hs h
    rfl

@[simp] theorem pulseCallback_ackPending (d : DeviceState) (s : State) : (pulseCallback d s).1.ackPending = false := by
  obtain ⟨-, h⟩ | ⟨hack, h⟩ := pulseCallback_cases d s <;> rw [h]
  exact hack

@[simp] theorem pulseCallback_outputFile (d : DeviceState) (s : State) :
    (pulseCallback d s).1.outputFile = d.outputFile := by
  obtain ⟨-, h⟩ | ⟨-, h⟩ := pulseCallback_cases d s <;> rw [h]

/-- A flush keeps an open file open (R54). -/
theorem flush_keeps_open_file (h : d.outputFile = some n) : (flush d s).1.outputFile = some n := by
  obtain ⟨-, h'⟩ | ⟨_, -, -, h'⟩ | ⟨-, hnone, -, -⟩ | ⟨-, hnone, -, -⟩ := flush_cases d s
  · rw [h']; exact h
  · rw [h']; exact h
  · rw [hnone] at h; cases h
  · rw [hnone] at h; cases h

/-- A file that a flush leaves newly open has the name of this moment, and its open succeeded (R55). -/
theorem flush_opens_file (hnone : d.outputFile = none) (h : (flush d s).1.outputFile = some n) :
    s.draws.openOk = true ∧ n = fileName s.draws.stamp := by
  obtain ⟨-, h'⟩ | ⟨_, -, hsome, -⟩ | ⟨-, -, hopen, h'⟩ | ⟨-, -, -, h'⟩ := flush_cases d s
  · rw [h', hnone] at h; cases h
  · rw [hnone] at hsome; cases hsome
  · rw [h'] at h
    exact ⟨hopen, (Option.some.inj h).symm⟩
  · rw [h', dropBuffered, DeviceState.emptied_outputFile, hnone] at h; cases h

/-- A CONTROL write keeps an open file open. -/
theorem writeControl_keeps_open_file (hr : writeControl v d s = some r) (h : d.outputFile = some n) :
    r.1.outputFile = some n := by
  cases hs : strobeEdge d.control v with
  | false =>
    rw [writeControl_no_strobe d s hs] at hr
    obtain ⟨-, -, -, -, hfile, -⟩ := controlLevels_data d v
    cases hr
    exact hfile.trans h
  | true =>
    obtain ⟨full, hfull, rfl⟩ := writeControl_strobe_eq hs hr
    obtain ⟨-, -, -, hframe⟩ := bufAppend_some hfull
    have hopen : full.outputFile = some n := by rw [hframe]; exact h
    obtain ⟨-, hst⟩ | ⟨-, hst⟩ := storeByte_cases full s <;> simp only [hst]
    · exact flush_keeps_open_file hopen
    · exact hopen

/-- A CONTROL write leaves a file newly open only by the flush of the buffer its STROBE edge filled (R48, R55). -/
theorem writeControl_opens_file (hr : writeControl v d s = some r) (hnone : d.outputFile = none)
    (h : r.1.outputFile = some n) :
    s.draws.openOk = true ∧ n = fileName s.draws.stamp ∧ d.cursor.val + 1 = Config.capacity ∧
      strobeEdge d.control v = true := by
  cases hs : strobeEdge d.control v with
  | false =>
    rw [writeControl_no_strobe d s hs] at hr
    obtain ⟨-, -, -, -, hfile, -⟩ := controlLevels_data d v
    cases hr
    rw [DeviceState.setControl_outputFile, hfile, hnone] at h
    cases h
  | true =>
    obtain ⟨full, hfull, rfl⟩ := writeControl_strobe_eq hs hr
    obtain ⟨-, hcursor, -, hframe⟩ := bufAppend_some hfull
    have hclosed : full.outputFile = none := by rw [hframe]; exact hnone
    obtain ⟨hcap, hst⟩ | ⟨-, hst⟩ := storeByte_cases full s <;> simp only [hst] at h
    · obtain ⟨hopen, hname⟩ := flush_opens_file hclosed h
      exact ⟨hopen, hname, hcursor.symm.trans hcap, rfl⟩
    · rw [hclosed] at h; cases h

end

/-! ## What an operation does to a device that stays Present -/

/-- Of the operations that leave a Present device Present, only a CONTROL write and the timer fires touch more of it than
the latch. -/
theorem exec_present_cases {i : Instr} {s t : State} {d d' : DeviceState} (h : exec i s = .next t)
    (hd : s.dev = .present d) (hd' : t.dev = .present d') :
    (∃ v, d' = d.latch v) ∨
    (∃ v r, i = .wrControl v ∧ writeControl v d s = some r ∧ d' = r.1) ∨
    (i = .firePulse ∧ d' = (pulseCallback d s).1) ∨
    (i = .fireTimeout ∧ d' = (timeoutCallback d s).1) := by
  obtain ⟨_, rfl, -⟩ | ⟨v, _, rfl, hp, rfl⟩ | ⟨v, _, r, rfl, hp, hw, rfl⟩ | ⟨-, habs, -⟩ | ⟨_, -, -, rfl⟩ |
    ⟨_, -, -, rfl⟩ | ⟨_, rfl, hp, -, rfl⟩ | ⟨_, rfl, hp, -, rfl⟩ | ⟨_, -, -, rfl⟩ := exec_cases h
  · -- an access without effect on the device
    cases hd.symm.trans hd'; exact .inl ⟨d.dataLatch, rfl⟩
  · cases hd.symm.trans hp; cases hd'; exact .inl ⟨v, rfl⟩
  · cases hd.symm.trans hp; cases hd'; exact .inr (.inl ⟨v, r, rfl, hw, rfl⟩)
  · -- INIT on an Absent device
    cases hd.symm.trans habs
  · -- INIT on a Present device
    cases hd.symm.trans hd'; exact .inl ⟨d.dataLatch, rfl⟩
  · -- CLOSE, which leaves no device
    cases hd'
  · cases hd.symm.trans hp; cases hd'; exact .inr (.inr (.inl ⟨rfl, rfl⟩))
  · cases hd.symm.trans hp; cases hd'; exact .inr (.inr (.inr ⟨rfl, rfl⟩))
  · -- ADVANCE
    cases hd.symm.trans hd'; exact .inl ⟨d.dataLatch, rfl⟩

/-! ## The sink part of the invariant -/

/-- What the invariant says of the files: their canonical form, and of the open one that it exists and that the output trace
leaves it open. Of the device it reads the open file alone, so it also holds while the buffer is full. -/
structure SinkInv (d : DeviceState) (s : State) : Prop where
  fs_wf : FileSystem.wf s.fs
  file_exists : ∀ n, d.outputFile = some n → (FileSystem.content s.fs n).isSome
  file_logged : openInLog s.out = d.outputFile

theorem DeviceState.Inv.sinkInv {d : DeviceState} {s : State} (h : d.Inv s) (hfs : FileSystem.wf s.fs) :
    SinkInv d s := ⟨hfs, h.file_exists, h.file_logged⟩

section
variable {d d' : DeviceState} {s : State} {n : FileName}

theorem SinkInv.of_outputFile_eq (h : SinkInv d s) (hf : d'.outputFile = d.outputFile) : SinkInv d' s :=
  ⟨h.fs_wf, hf ▸ h.file_exists, h.file_logged.trans hf.symm⟩

/-- The file that a flush leaves open exists: it was just written, or nothing was buffered (R59, R60). -/
theorem flush_file_exists (h : SinkInv d s) (hn : (flush d s).1.outputFile = some n) :
    (FileSystem.content (flush d s).2.fs n).isSome := by
  obtain ⟨-, h'⟩ | ⟨m, -, hm, h'⟩ | ⟨-, -, -, h'⟩ | ⟨-, hnone, -, h'⟩ := flush_cases d s <;> rw [h'] at hn ⊢
  · exact h.file_exists n hn
  · cases hm.symm.trans hn
    simp [writeSink, FileSystem.content_append h.fs_wf]
  · cases hn
    simp [writeSink, openSink, FileSystem.content_append (FileSystem.openAppend_wf h.fs_wf _)]
  · cases hnone.symm.trans hn

/-- A flush keeps the sink part of the invariant (R52). -/
theorem flush_sinkInv (h : SinkInv d s) : SinkInv (flush d s).1 (flush d s).2 :=
  ⟨flush_fs_wf h.fs_wf, fun _ hn => flush_file_exists h hn, flush_log h.file_logged⟩

theorem storeByte_sinkInv (h : SinkInv d s) : SinkInv (storeByte d s).1 (storeByte d s).2 := by
  obtain ⟨-, h'⟩ | ⟨-, h'⟩ := storeByte_cases d s <;> rw [h']
  · exact flush_sinkInv h
  · exact h

/-- The end of a job keeps the file system's canonical form. -/
theorem endJob_fs_wf (h : FileSystem.wf s.fs) : FileSystem.wf (endJob d s).2.fs := by
  rw [endJob_fs]
  exact flush_fs_wf h

end

/-! ## The invariant of a device and a state -/

/-- What the shared operations keep: the invariant of the device, and the canonical form of the files. -/
structure PairInv (r : DeviceState × State) : Prop where
  device : r.1.Inv r.2
  fs_wf : FileSystem.wf r.2.fs

section
variable {d : DeviceState} {s : State} {v : Byte} {r : DeviceState × State}

/-- The invariant of a device reads only the clock, the files and the output trace of the state. -/
theorem DeviceState.Inv.congr {t : State} (h : d.Inv s) (hnow : t.now = s.now) (hfs : t.fs = s.fs)
    (hout : t.out = s.out) : d.Inv t where
  buf_wf := h.buf_wf
  cursor_lt := h.cursor_lt
  ack_iff_armed := h.ack_iff_armed
  pulse_near := hnow ▸ h.pulse_near
  timeout_near := hnow ▸ h.timeout_near
  file_exists := hfs ▸ h.file_exists
  file_logged := hout ▸ h.file_logged
  inert := h.inert

theorem State.Inv.pair (h : s.Inv) (hd : s.dev = .present d) : PairInv (d, s) := ⟨h.device d hd, h.fs_wf⟩

/-- The state put together from a device and a state that meet the invariant meets it. -/
theorem PairInv.rejoin_answer (h : PairInv r) (x : Option Byte) : ((rejoin r).answer x).Inv where
  fs_wf := h.fs_wf
  device d hd := by
    cases hd
    exact h.device.congr rfl rfl rfl
  absent := nofun

theorem latch_pairInv (h : PairInv (d, s)) : PairInv (d.latch v, s) := ⟨{ h.device with }, h.fs_wf⟩

/-- The device a successful INIT creates meets the invariant where the output trace leaves no file open (R36, R38). -/
theorem initialDevice_inv (h : openInLog s.out = none) : initialDevice.Inv s where
  buf_wf := ⟨List.Pairwise.nil, nofun⟩
  cursor_lt := by simp [initialDevice]
  ack_iff_armed := rfl
  pulse_near := nofun
  timeout_near := nofun
  file_exists := nofun
  file_logged := h
  inert := ⟨rfl, rfl, rfl⟩

/-- Without a RESET edge the levels touch only flags the invariant does not read; with one they disarm both timers and clear
the ACK together (I2). -/
theorem controlLevels_inv (h : d.Inv s) : (controlLevels v d).Inv s := by
  cases he : resetEdge d.control v with
  | false =>
    rw [controlLevels_no_reset d he]
    exact { h with }
  | true =>
    rw [controlLevels_reset d he]
    exact { h with
      ack_iff_armed := rfl
      pulse_near := nofun
      timeout_near := nofun }

/-- A CONTROL write keeps the invariant: a STROBE edge sets the ACK and arms both timers from now (I2, I3), and a full buffer
is flushed before the write ends (I1). -/
theorem writeControl_pairInv (h : PairInv (d, s)) (hr : writeControl v d s = some r) : PairInv r := by
  obtain ⟨hd, hfs⟩ := h
  cases hs : strobeEdge d.control v with
  | false =>
    rw [writeControl_no_strobe d s hs] at hr
    cases hr
    have hlevels : (controlLevels v d).Inv s := controlLevels_inv hd
    exact ⟨{ hlevels with }, hfs⟩
  | true =>
    obtain ⟨full, hfull, rfl⟩ := writeControl_strobe_eq hs hr
    obtain ⟨hlt, -, hbuf, hframe⟩ := bufAppend_some hfull
    have hsink := storeByte_sinkInv ((hd.sinkInv hfs).of_outputFile_eq (d' := full) (by rw [hframe]))
    refine ⟨?_, hsink.fs_wf⟩
    exact {
      buf_wf := by
        rw [storeByte_device, hbuf]
        exact Memory.write_wf hd.buf_wf hlt _
      cursor_lt := storeByte_cursor_lt full s
      ack_iff_armed := rfl
      pulse_near := by
        rintro _ ⟨⟩
        simp
      timeout_near := by
        rintro _ ⟨⟩
        simp
      file_exists := hsink.file_exists
      file_logged := hsink.file_logged
      inert := by
        rw [storeByte_device, hframe]
        exact hd.inert }

/-- The pulse fire clears the ACK with its timer (I2). -/
theorem pulseCallback_pairInv (h : PairInv (d, s)) : PairInv (pulseCallback d s) := by
  obtain ⟨hd, hfs⟩ := h
  obtain ⟨-, h'⟩ | ⟨hack, h'⟩ := pulseCallback_cases d s <;> rw [h']
  · exact ⟨{ hd with
      ack_iff_armed := rfl
      pulse_near := nofun
      file_logged := by simp [openAfter, hd.file_logged] }, hfs⟩
  · exact ⟨{ hd with
      ack_iff_armed := hack
      pulse_near := nofun }, hfs⟩

/-- The timeout fire leaves an empty buffer, no open file, in the output trace as in the device, and its timer disarmed. -/
theorem timeoutCallback_pairInv (h : PairInv (d, s)) : PairInv (timeoutCallback d s) := by
  obtain ⟨hd, hfs⟩ := h
  refine ⟨?_, by rw [timeoutCallback_state]; exact endJob_fs_wf hfs⟩
  rw [timeoutCallback_device, timeoutCallback_state]
  exact {
    buf_wf := hd.buf_wf
    cursor_lt := by simp
    ack_iff_armed := hd.ack_iff_armed
    pulse_near := by simpa using hd.pulse_near
    timeout_near := nofun
    file_exists := nofun
    file_logged := endJob_log hd.file_logged
    inert := hd.inert }

/-- An enabled ADVANCE passes no armed deadline (R115). -/
theorem le_deadline_of_advanceEnabled {delta x : Nat} (h : advanceEnabled s delta = true) (hx : x ∈ s.dev.deadlines) :
    s.now + delta ≤ x := by
  simpa using List.all_eq_true.mp h x hx

/-- An enabled ADVANCE keeps the armed deadlines ahead, and brings them nearer (I3). -/
theorem addTime_inv {delta : Nat} (h : d.Inv s) (hd : s.dev = .present d) (he : advanceEnabled s delta = true) :
    d.Inv (s.addTime delta) :=
  { h with
    pulse_near := fun x hx => by
      have hle := le_deadline_of_advanceEnabled he (x := x) (by simp [hd, hx])
      have hnear := h.pulse_near x hx
      simp only [State.addTime_now]
      omega
    timeout_near := fun x hx => by
      have hle := le_deadline_of_advanceEnabled he (x := x) (by simp [hd, hx])
      have hnear := h.timeout_near x hx
      simp only [State.addTime_now]
      omega }

end

/-! ## The invariant through an operation -/

/-- The invariant reads only the device, the clock, the files and the output trace. -/
theorem State.Inv.congr {s t : State} (h : s.Inv) (hdev : t.dev = s.dev) (hnow : t.now = s.now) (hfs : t.fs = s.fs)
    (hout : t.out = s.out) : t.Inv where
  fs_wf := hfs ▸ h.fs_wf
  device d hd := (h.device d (hdev ▸ hd)).congr hnow hfs hout
  absent hd := hout ▸ h.absent (hdev ▸ hd)

/-- Every operation keeps the invariant (R34, R35, R38). -/
theorem exec_keeps_inv {i : Instr} {s t : State} (h : s.Inv) (hx : exec i s = .next t) : t.Inv := by
  obtain ⟨_, rfl, -⟩ | ⟨_, d, -, hd, rfl⟩ | ⟨_, d, _, -, hd, hw, rfl⟩ | ⟨-, habs, -, rfl⟩ | ⟨_, -, -, rfl⟩ |
    ⟨d, -, hd, rfl⟩ | ⟨d, -, hd, -, rfl⟩ | ⟨d, -, hd, -, rfl⟩ | ⟨delta, -, he, rfl⟩ := exec_cases hx
  · exact h.congr rfl rfl rfl rfl
  · exact (latch_pairInv (h.pair hd)).rejoin_answer none
  · exact (writeControl_pairInv (h.pair hd) hw).rejoin_answer none
  · -- INIT creates the device
    exact PairInv.rejoin_answer (r := (initialDevice, s)) ⟨initialDevice_inv (h.absent habs), h.fs_wf⟩ none
  · exact h.congr rfl rfl rfl rfl
  · -- CLOSE releases it, and no file stays open
    exact ⟨endJob_fs_wf h.fs_wf, nofun, fun _ => endJob_log (h.device d hd).file_logged⟩
  · exact (pulseCallback_pairInv (h.pair hd)).rejoin_answer none
  · exact (timeoutCallback_pairInv (h.pair hd)).rejoin_answer none
  · -- ADVANCE
    exact ⟨h.fs_wf, fun d hd => (addTime_inv (h.device d hd) hd he).congr rfl rfl rfl, h.absent⟩

/-! ## The obligations -/

/-- Settles O46: taking the event touches nothing the invariant reads, and then `exec_keeps_inv`, or the mark alone. -/
theorem stepKeepsInvariant : Obligations.StepKeepsInvariant := by
  intro s t h hstep
  obtain ⟨e, rest, -, ⟨_, -, hx⟩ | ⟨_, -, rfl⟩⟩ := step_cases hstep
  · have htaken : (s.take e.draws rest).Inv := h.congr rfl rfl rfl rfl
    exact exec_keeps_inv htaken hx
  · exact h.congr rfl rfl rfl rfl

/-- Settles O8: the byte read is `statusValue`. -/
theorem statusBitsOfRead : Obligations.StatusBitsOfRead :=
  fun _ d hd => ⟨statusValue d, _, exec_rdStatus_present hd, rfl, statusValue_bit d⟩

/-- Settles O35: only a CONTROL write and the pulse fire touch the ACK, as `writeControl_ackPending` says. -/
theorem ackPendingSetAndClearedOnlyBy : Obligations.AckPendingSetAndClearedOnlyBy := by
  intro i s t d d' h hd hd'
  obtain ⟨_, rfl⟩ | ⟨v, r, rfl, hw, rfl⟩ | ⟨rfl, rfl⟩ | ⟨rfl, rfl⟩ := exec_present_cases h hd hd'
  · simp +contextual
  · rw [writeControl_ackPending hw]
    refine ⟨fun hclear hset => ⟨v, rfl, ?_⟩, fun hset hclear => .inr ⟨v, rfl, ?_⟩⟩
    · simpa [hclear] using hset
    · simpa [hset, and_comm] using hclear
  · simp
  · rw [timeoutCallback_device]
    simp +contextual

/-- Settles O36: a CONTROL write keeps an open file and opens one only at the full buffer; the timeout fire leaves none. -/
theorem openFileLifetime : Obligations.OpenFileLifetime := by
  intro i s t d d' n h hd hd'
  obtain ⟨_, rfl⟩ | ⟨v, r, rfl, hw, rfl⟩ | ⟨rfl, rfl⟩ | ⟨rfl, rfl⟩ := exec_present_cases h hd hd'
  · simp +contextual
  · refine ⟨fun hopen => .inl (writeControl_keeps_open_file hw hopen), fun hnone hopen => ?_⟩
    obtain ⟨hok, hname, hcap, hs⟩ := writeControl_opens_file hw hnone hopen
    exact ⟨hok, hname, hcap, v, rfl, hs⟩
  · simp +contextual
  · rw [timeoutCallback_device]
    simp

/-- Settles O47: an Absent device and an empty output trace. -/
theorem runStartMeetsInvariant : Obligations.RunStartMeetsInvariant := by
  have hstart : ∀ fs trace, FileSystem.wf fs → (State.start fs trace).Inv := fun fs trace hfs =>
    ⟨hfs, nofun, fun _ => rfl⟩
  exact ⟨hstart, hstart [] [] List.Pairwise.nil⟩

end Sys2Proof.Machine

/-! SUPPORT. The data path from the latch to the files: a flush in each of its cases, the byte that fills the buffer, the end
of a job, and the conservation of the bytes on their way (20_memory.md). -/

namespace Sys2Proof.Machine

/-! ## The flush, case by case -/

section
variable {d : DeviceState} {s : State} {n : FileName}

@[simp] theorem bufferedBytes_length (d : DeviceState) : (bufferedBytes d).length = d.cursor.val := by
  simp [bufferedBytes]

@[simp] theorem bufferedBytes_latch (d : DeviceState) (v : Byte) : bufferedBytes (d.latch v) = bufferedBytes d := rfl
@[simp] theorem bufferedBytes_setFile (d : DeviceState) (f : Option FileName) :
    bufferedBytes (d.setFile f) = bufferedBytes d := rfl

/-- With nothing buffered a flush does nothing (R53). -/
theorem flush_of_empty (hc : d.cursor.val = 0) : flush d s = (d, s) := if_pos hc

/-- With a file open a flush writes to it (R54). -/
theorem flush_of_open (hc : d.cursor.val ≠ 0) (hf : d.outputFile = some n) : flush d s = writeSink n d s := by
  simp only [flush, if_neg hc, hf]

/-- With no file open and an open that succeeds a flush opens the file of this moment and writes to it (R55). -/
theorem flush_of_openOk (hc : d.cursor.val ≠ 0) (hf : d.outputFile = none) (ho : s.draws.openOk = true) :
    flush d s = writeSink (fileName s.draws.stamp) (openSink (fileName s.draws.stamp) d s).1
      (openSink (fileName s.draws.stamp) d s).2 := by
  simp only [flush, if_neg hc, hf, ho, if_true]

/-- With no file open and an open that fails a flush drops what is buffered (R56). -/
theorem flush_of_openFailed (hc : d.cursor.val ≠ 0) (hf : d.outputFile = none) (ho : s.draws.openOk = false) :
    flush d s = dropBuffered d s := by
  simp [flush, hc, hf, ho]

/-- A flush that reaches its file puts the buffered bytes after what the file held, and leaves the others (R54, R55). -/
theorem flush_content (hfs : FileSystem.wf s.fs) (hc : d.cursor.val ≠ 0)
    (hopen : d.outputFile ≠ none ∨ s.draws.openOk = true) (m : FileName) :
    FileSystem.content (flush d s).2.fs m =
      if m = sinkName d s then some ((FileSystem.content s.fs (sinkName d s)).getD [] ++ bufferedBytes d)
      else FileSystem.content s.fs m := by
  cases hf : d.outputFile with
  | some n =>
    rw [flush_of_open hc hf]
    simp [writeSink, sinkName, hf, FileSystem.content_append hfs]
  | none =>
    have ho : s.draws.openOk = true := hopen.resolve_left (absurd hf)
    rw [flush_of_openOk hc hf ho]
    simp only [writeSink, sinkName, hf, bufferedBytes_setFile, Option.getD_none, State.emit_fs, State.setFiles_fs, openSink,
      FileSystem.content_append (FileSystem.openAppend_wf hfs _), FileSystem.content_openAppend hfs]
    split <;> simp

end

/-! ## The byte that fills the buffer (R48) -/

section
variable {d : DeviceState} {s : State} {v : Byte}

/-- A CONTROL write touches only `fs` and `out` of the rest of the state (R89). -/
theorem writeControl_state {r : DeviceState × State} (h : writeControl v d s = some r) :
    r.2 = { s with fs := r.2.fs, out := r.2.out } := by
  obtain ⟨-, rfl⟩ | ⟨-, a, ha, rfl⟩ := writeControl_some d s h
  · rfl
  · have hstate := acceptByte_state _ s ha
    exact hstate

/-- The STROBE edge that fills the buffer flushes all of it, and starts the ACK whatever the flush did (R48, R101). -/
theorem exec_wrControl_fills (hd : s.dev = .present d) (hv : bit v 0 = false) (hold : bit d.control 0 = true)
    (hcap : d.cursor.val + 1 = Config.capacity) :
    ∃ full t d', bufAppend d.dataLatch d = some full ∧ full.cursor.val ≠ 0 ∧ full.outputFile = d.outputFile ∧
      exec (.wrControl v) s = .next t ∧ t.dev = .present d' ∧
      t.out = (flush full s).2.out ∧ t.fs = (flush full s).2.fs ∧ d'.cursor.val = 0 ∧
      d'.outputFile = (flush full s).1.outputFile ∧ d'.ackPending = true ∧
      d'.pulseDeadline = some (s.now + Config.pulseDelay) ∧
      d'.timeoutDeadline = some (s.now + Config.timeoutDelay) := by
  have hs : strobeEdge d.control v = true := strobeEdge_true hv hold
  cases hr : writeControl v d s with
  | none =>
    have hfull := (writeControl_none d s).mp hr
    omega
  | some r =>
    obtain ⟨full, hfull, rfl⟩ := writeControl_strobe_eq hs hr
    obtain ⟨-, hcursor, -, hframe⟩ := bufAppend_some hfull
    have hst : storeByte full s = flush full s := if_pos (hcursor.trans hcap)
    rw [hst] at hr
    exact ⟨full, _, _, hfull, by omega, by rw [hframe], exec_wrControl_some hd hr, rfl, rfl, rfl,
      by simp, rfl, rfl, rfl, rfl⟩

end

/-! ## The end of a job (R61, R120, R130) -/

section
variable {d : DeviceState} {s : State} {i : Instr}

/-- The end of a job emits what its flush emits, and closes the file that the flush leaves open. -/
theorem endJob_out :
    (endJob d s).2.out = (flush d s).2.out ++ ((flush d s).1.outputFile.map OutEvent.sinkClose).toList := by
  obtain ⟨n, hn, h⟩ | ⟨hn, h⟩ := closeSink_cases (flush d s).1 (flush d s).2
  · simp [endJob, h, hn]
  · simp [endJob, h, hn]

/-- Both operations that end a job flush, close the file and leave nothing buffered (R120, R130). -/
theorem exec_endsJob (hd : s.dev = .present d) (h : endsJob i d s) :
    ∃ t, exec i s = .next t ∧ t.out = (flush d s).2.out ++ ((flush d s).1.outputFile.map OutEvent.sinkClose).toList ∧
      t.fs = (flush d s).2.fs ∧ t.dev.buffered = [] := by
  obtain rfl | ⟨rfl, hdue⟩ := h
  · exact ⟨_, exec_close_present hd, endJob_out, endJob_fs d s, rfl⟩
  · refine ⟨_, exec_fireTimeout_due hd hdue, endJob_out, endJob_fs d s, bufferedBytes_of_empty _ ?_⟩
    rw [timeoutCallback_device]
    rfl

end

/-! ## The stream is conserved (R70, R71) -/

/-- From the output trace `out` to `out'` the bytes written, followed by those on their way, stay as they are, or an open
fails and those on their way are lost. `was` and `left` are the bytes on their way before and after. -/
def Conserves (was : List Byte) (out : List OutEvent) (left : List Byte) (out' : List OutEvent) : Prop :=
  (failedOpens out' = failedOpens out → written out' ++ left = written out ++ was) ∧
  (failedOpens out' ≠ failedOpens out → written out' = written out ∧ left = [])

section
variable {d : DeviceState} {s t : State} {v : Byte} {was left : List Byte} {out out' es : List OutEvent}

@[simp] theorem Conserves.refl : Conserves was out was out := by simp [Conserves]

/-- Events that carry no byte and report no failed open do not count. -/
theorem Conserves.append (h : Conserves was out left out') (hbytes : written es = []) (hopens : failedOpens es = 0) :
    Conserves was out left (out' ++ es) := by
  simpa [Conserves, hbytes, hopens] using h

theorem flush_conserves (d : DeviceState) (s : State) :
    Conserves (bufferedBytes d) s.out (bufferedBytes (flush d s).1) (flush d s).2.out := by
  obtain ⟨-, h⟩ | ⟨n, -, -, h⟩ | ⟨-, -, -, h⟩ | ⟨-, -, -, h⟩ := flush_cases d s <;> rw [h]
  · exact .refl
  · simp [Conserves, writeSink, payload]
  · simp [Conserves, writeSink, openSink, payload]
  · simp [Conserves, dropBuffered, payload]

theorem endJob_conserves (d : DeviceState) (s : State) : Conserves (bufferedBytes d) s.out [] (endJob d s).2.out := by
  have hflush := flush_conserves d s
  rw [bufferedBytes_of_empty (flush d s).1 (by simp)] at hflush
  rw [endJob_out]
  cases (flush d s).1.outputFile with
  | none => simpa using hflush
  | some n => exact hflush.append rfl rfl

theorem storeByte_conserves (full : DeviceState) (s : State) :
    Conserves (bufferedBytes full) s.out (bufferedBytes (storeByte full s).1) (storeByte full s).2.out := by
  obtain ⟨-, h⟩ | ⟨-, h⟩ := storeByte_cases full s <;> rw [h]
  · exact flush_conserves full s
  · exact .refl

theorem acceptedBy_wrControl (hd : s.dev = .present d) (v : Byte) :
    acceptedBy (.wrControl v) s = if strobeEdge d.control v then [d.dataLatch] else [] := by
  simp [acceptedBy, hd]

theorem acceptedBy_absent (hd : s.dev = .absent) (i : Instr) : acceptedBy i s = [] := by
  cases i <;> simp [acceptedBy, hd]

theorem acceptedBy_of_ne {i : Instr} (h : ∀ v, i ≠ .wrControl v) : acceptedBy i s = [] := by
  cases i with
  | wrControl v => exact absurd rfl (h v)
  | _ => rfl

/-- A CONTROL write adds the latch to the stream at a STROBE edge, and nothing otherwise (R99, R101). -/
theorem writeControl_conserves {r : DeviceState × State} (hwf : Memory.wf d.buf) (hr : writeControl v d s = some r) :
    Conserves (bufferedBytes d ++ if strobeEdge d.control v then [d.dataLatch] else []) s.out
      (bufferedBytes r.1) r.2.out := by
  cases hs : strobeEdge d.control v with
  | false =>
    rw [writeControl_no_strobe d s hs] at hr
    cases hr
    obtain ⟨-, -, hbuf, hcursor, -⟩ := controlLevels_data d v
    have hbytes : bufferedBytes ((controlLevels v d).setControl v) = bufferedBytes d := bufferedBytes_congr hbuf hcursor
    simp [hbytes]
  | true =>
    obtain ⟨full, hfull, rfl⟩ := writeControl_strobe_eq hs hr
    have hstore := storeByte_conserves full s
    rw [bufferedBytes_bufAppend hwf hfull] at hstore
    exact hstore

theorem pulseCallback_conserves (d : DeviceState) (s : State) :
    Conserves (bufferedBytes d) s.out (bufferedBytes (pulseCallback d s).1) (pulseCallback d s).2.out := by
  obtain ⟨-, h⟩ | ⟨-, h⟩ := pulseCallback_cases d s <;> rw [h]
  · exact Conserves.refl.append rfl rfl
  · exact .refl

theorem bufferedBytes_timeoutCallback (d : DeviceState) (s : State) : bufferedBytes (timeoutCallback d s).1 = [] := by
  rw [timeoutCallback_device]
  rfl

/-- Every operation adds to the stream the byte it accepts (R70). -/
theorem exec_conserves {i : Instr} (h : s.Inv) (hx : exec i s = .next t) :
    Conserves (s.dev.buffered ++ acceptedBy i s) s.out t.dev.buffered t.out := by
  obtain ⟨_, rfl, -, -, -, hidle⟩ | ⟨v, d, rfl, hd, rfl⟩ | ⟨v, d, r, rfl, hd, hw, rfl⟩ | ⟨rfl, habs, -, rfl⟩ |
    ⟨_, rfl, hd, rfl⟩ | ⟨d, rfl, hd, rfl⟩ | ⟨d, rfl, hd, -, rfl⟩ | ⟨d, rfl, hd, -, rfl⟩ | ⟨_, rfl, -, rfl⟩ :=
    exec_cases hx
  · -- an Absent device, or a read
    have hnone : acceptedBy i s = [] := by
      obtain habs | rfl | rfl | rfl := hidle
      · exact acceptedBy_absent habs i
      all_goals rfl
    simp [hnone]
  · simp [hd, acceptedBy_of_ne]
  · simpa [hd, acceptedBy_wrControl hd] using writeControl_conserves (h.device d hd).buf_wf hw
  · -- INIT creates a device with an empty buffer
    have hbytes : bufferedBytes initialDevice = [] := rfl
    simp [habs, hbytes, acceptedBy_of_ne]
  · simp [acceptedBy_of_ne]
  · simpa [hd, acceptedBy_of_ne, teardown_state] using endJob_conserves d s
  · simpa [hd, acceptedBy_of_ne] using pulseCallback_conserves d s
  · simpa [hd, acceptedBy_of_ne, timeoutCallback_state, bufferedBytes_timeoutCallback] using endJob_conserves d s
  · simp [acceptedBy_of_ne]

end

/-- Settles O43: this is `exec_conserves`. -/
theorem streamConserved : Obligations.StreamConserved := by
  intro i s t h hx
  rw [List.append_assoc]
  exact exec_conserves h hx

end Sys2Proof.Machine
/-! SUPPORT. The obligations of the flush, of the end of a job and of the files' growth (20_memory.md). -/

namespace Sys2Proof.Machine

/-! ## Every file grows by its payloads (R59 to R61, R139) -/

/-- From `s` to `t` the output trace grows by events whose payloads file `n` takes after what it held; the other contents
stay, and no file vanishes. -/
def FilesGrow (n : FileName) (s t : State) : Prop :=
  ∃ es, t.out = s.out ++ es ∧ ∀ m, (FileSystem.content t.fs m).getD [] =
      (FileSystem.content s.fs m).getD [] ++ (if m = n then written es else []) ∧
    ((FileSystem.content s.fs m).isSome → (FileSystem.content t.fs m).isSome)

section
variable {d : DeviceState} {s t u : State} {n : FileName} {es : List OutEvent}

theorem FilesGrow.of_eq (hout : t.out = s.out) (hfs : t.fs = s.fs) : FilesGrow n s t :=
  ⟨[], by simp [hout], by simp [hfs]⟩

/-- Events that carry no byte and touch no file do not count. -/
theorem FilesGrow.append (h : FilesGrow n s t) (hout : u.out = t.out ++ es) (hbytes : written es = [])
    (hfs : u.fs = t.fs) : FilesGrow n s u := by
  obtain ⟨es₀, hout₀, hfiles⟩ := h
  refine ⟨es₀ ++ es, by rw [hout, hout₀, List.append_assoc], ?_⟩
  rw [hfs, written_append, hbytes, List.append_nil]
  exact hfiles

/-- A flush that reaches its file appends to it exactly what it emits. -/
theorem flush_filesGrow_of_written (hfs : FileSystem.wf s.fs) (hc : d.cursor.val ≠ 0)
    (hopen : d.outputFile ≠ none ∨ s.draws.openOk = true) (hout : (flush d s).2.out = s.out ++ es)
    (hbytes : written es = bufferedBytes d) : FilesGrow (sinkName d s) s (flush d s).2 := by
  refine ⟨es, hout, fun m => ?_⟩
  rw [flush_content hfs hc hopen, hbytes]
  split
  · rename_i hm
    simp [hm]
  · simp

theorem flush_filesGrow (hfs : FileSystem.wf s.fs) : FilesGrow (sinkName d s) s (flush d s).2 := by
  obtain ⟨-, h⟩ | ⟨n, hc, hf, h⟩ | ⟨hc, -, ho, h⟩ | ⟨-, -, -, h⟩ := flush_cases d s
  · exact .of_eq (by rw [h]) (by rw [h])
  · exact flush_filesGrow_of_written hfs hc (.inl (by simp [hf])) (es := [.sinkWrite (bufferedBytes d)])
      (by rw [h]; rfl) (by simp [payload])
  · exact flush_filesGrow_of_written hfs hc (.inr ho)
      (es := [.sinkOpen (fileName s.draws.stamp), .sinkWrite (bufferedBytes d)])
      (by rw [h]; simp [writeSink, openSink]) (by simp [payload])
  · rw [h]
    exact FilesGrow.append (.of_eq rfl rfl) rfl rfl rfl

theorem endJob_filesGrow (hfs : FileSystem.wf s.fs) : FilesGrow (sinkName d s) s (endJob d s).2 := by
  refine (flush_filesGrow hfs).append endJob_out ?_ (endJob_fs d s)
  cases (flush d s).1.outputFile <;> simp [payload]

theorem writeControl_filesGrow {v : Byte} {r : DeviceState × State} (hfs : FileSystem.wf s.fs)
    (hr : writeControl v d s = some r) : FilesGrow (sinkName d s) s r.2 := by
  cases hs : strobeEdge d.control v with
  | false =>
    rw [writeControl_no_strobe d s hs] at hr
    cases hr
    exact .of_eq rfl rfl
  | true =>
    obtain ⟨full, hfull, rfl⟩ := writeControl_strobe_eq hs hr
    obtain ⟨-, -, -, hframe⟩ := bufAppend_some hfull
    have hname : sinkName full s = sinkName d s := by rw [hframe]; rfl
    obtain ⟨-, h⟩ | ⟨-, h⟩ := storeByte_cases full s <;> rw [h]
    · exact hname ▸ flush_filesGrow hfs
    · exact .of_eq rfl rfl

/-- On an Absent device no operation emits or touches a file (R38, R139). -/
theorem exec_absent_data {i : Instr} (hd : s.dev = .absent) (hx : exec i s = .next t) :
    t.out = s.out ∧ t.fs = s.fs := by
  obtain ⟨_, rfl, -⟩ | ⟨_, _, -, hp, -⟩ | ⟨_, _, _, -, hp, -⟩ | ⟨-, -, -, rfl⟩ | ⟨_, -, hp, -⟩ | ⟨_, -, hp, -⟩ |
    ⟨_, -, hp, -⟩ | ⟨_, -, hp, -⟩ | ⟨_, -, -, rfl⟩ := exec_cases hx
  · exact ⟨rfl, rfl⟩
  · cases hd.symm.trans hp
  · cases hd.symm.trans hp
  · -- INIT creates the device
    exact ⟨rfl, rfl⟩
  · cases hd.symm.trans hp
  · cases hd.symm.trans hp
  · cases hd.symm.trans hp
  · cases hd.symm.trans hp
  · -- ADVANCE
    exact ⟨rfl, rfl⟩

/-- On a Present device every operation grows the one file a flush writes to (R59, R60, R139). -/
theorem exec_present_filesGrow {i : Instr} (hfs : FileSystem.wf s.fs) (hd : s.dev = .present d)
    (hx : exec i s = .next t) : FilesGrow (sinkName d s) s t := by
  obtain ⟨_, rfl, -⟩ | ⟨_, _, -, -, rfl⟩ | ⟨_, _, r, -, hp, hw, rfl⟩ | ⟨-, habs, -⟩ | ⟨_, -, -, rfl⟩ |
    ⟨_, -, hp, rfl⟩ | ⟨d', -, hp, -, rfl⟩ | ⟨_, -, hp, -, rfl⟩ | ⟨_, -, -, rfl⟩ := exec_cases hx
  · exact .of_eq rfl rfl
  · -- WR_DATA
    exact .of_eq rfl rfl
  · cases hd.symm.trans hp
    have hgrow : FilesGrow (sinkName d s) s r.2 := writeControl_filesGrow hfs hw
    exact hgrow
  · cases hd.symm.trans habs
  · -- INIT, refused
    exact .of_eq rfl rfl
  · cases hd.symm.trans hp
    have hgrow : FilesGrow (sinkName d s) s (endJob d s).2 := endJob_filesGrow hfs
    exact hgrow
  · obtain ⟨-, h⟩ | ⟨-, h⟩ := pulseCallback_cases d' s <;> rw [h]
    · exact FilesGrow.append (.of_eq rfl rfl) rfl rfl rfl
    · exact .of_eq rfl rfl
  · cases hd.symm.trans hp
    have hgrow : FilesGrow (sinkName d s) s (endJob d s).2 := endJob_filesGrow hfs
    exact hgrow
  · -- ADVANCE
    exact .of_eq rfl rfl

end

/-! ## The obligations -/

/-- Settles O44: an Absent device does nothing to files, a Present one grows the file of its flush. -/
theorem filesGrowByPayloads : Obligations.FilesGrowByPayloads := by
  intro i s t h hx
  cases hd : s.dev with
  | absent =>
    obtain ⟨hout, hfs⟩ := exec_absent_data hd hx
    exact ⟨[], by simp [hout], by simp [hfs]⟩
  | present d => exact exec_present_filesGrow h.fs_wf hd hx

/-- Settles O16: the full buffer is the buffered bytes and the latch, and the flush writes it to the open file. -/
theorem bufferFullWritesOpenFile : Obligations.BufferFullWritesOpenFile := by
  intro s d v n c hd hwf hfs hv hold hcap hf hcontent
  obtain ⟨full, t, d', hfull, hne, hfile, hx, hd', hout, hfs', hcursor, hfile', hack, hpulse, htimeout⟩ :=
    exec_wrControl_fills hd hv hold hcap
  have hopen : full.outputFile = some n := hfile.trans hf
  have hname : sinkName full s = n := by simp [sinkName, hopen]
  have hbytes := bufferedBytes_bufAppend hwf hfull
  have hlen : (bufferedBytes d ++ [d.dataLatch]).length = Config.capacity := by simpa using hcap
  have hfiles := flush_content hfs hne (.inl (by simp [hopen]))
  rw [hname, hbytes, ← hfs'] at hfiles
  rw [flush_of_open hne hopen] at hout hfile'
  refine ⟨t, d', hx, hd', hlen, ?_, ?_, ?_, hcursor, hfile'.trans hopen, hack, hpulse, htimeout⟩
  · simpa [writeSink, hbytes] using hout
  · simp [hfiles, hcontent]
  · simp +contextual [hfiles]

/-- Settles O17: with no file open the same flush opens the file of this moment before it writes. -/
theorem bufferFullOpensFile : Obligations.BufferFullOpensFile := by
  intro s d v hd hwf hfs hv hold hcap hf ho
  obtain ⟨full, t, d', hfull, hne, hfile, hx, hd', hout, hfs', hcursor, hfile', hack, hpulse, htimeout⟩ :=
    exec_wrControl_fills hd hv hold hcap
  have hclosed : full.outputFile = none := hfile.trans hf
  have hname : sinkName full s = fileName s.draws.stamp := by simp [sinkName, hclosed]
  have hbytes := bufferedBytes_bufAppend hwf hfull
  have hfiles := flush_content hfs hne (.inr ho)
  rw [hname, hbytes, ← hfs'] at hfiles
  rw [flush_of_openOk hne hclosed ho] at hout hfile'
  refine ⟨t, d', hx, hd', ?_, ?_, ?_, hcursor, hfile', hack, hpulse, htimeout⟩
  · simpa [writeSink, openSink, hbytes] using hout
  · simp [hfiles]
  · simp +contextual [hfiles]

/-- Settles O18: the flush drops the bytes, and AcceptByte starts the ACK all the same. -/
theorem bufferFullFailedOpen : Obligations.BufferFullFailedOpen := by
  intro s d v hd hv hold hcap hf ho
  obtain ⟨full, t, d', -, hne, hfile, hx, hd', hout, hfs', hcursor, hfile', hack, hpulse, htimeout⟩ :=
    exec_wrControl_fills hd hv hold hcap
  have hclosed : full.outputFile = none := hfile.trans hf
  rw [flush_of_openFailed hne hclosed ho] at hout hfs' hfile'
  exact ⟨t, d', hx, hd', hout, hfs', hcursor, hfile'.trans hclosed, hack, hpulse, htimeout⟩

/-- Settles O20: the flush writes to the open file, and leaves it open for the close. -/
theorem jobEndWritesOpenFile : Obligations.JobEndWritesOpenFile := by
  intro i s d n c hd hend hfs hne hf hcontent
  obtain ⟨t, hx, hout, hfs', -⟩ := exec_endsJob hd hend
  have hname : sinkName d s = n := by simp [sinkName, hf]
  have hfiles := flush_content hfs hne (.inl (by simp [hf]))
  rw [hname, ← hfs'] at hfiles
  rw [flush_of_open hne hf] at hout
  refine ⟨t, hx, ?_, ?_, ?_⟩
  · simpa [writeSink, hf] using hout
  · simp [hfiles, hcontent]
  · simp +contextual [hfiles]

/-- Settles O22: the flush drops the bytes and opens nothing, so nothing is closed. -/
theorem jobEndFailedOpenDropsBytes : Obligations.JobEndFailedOpenDropsBytes := by
  intro i s d hd hend hne hf ho
  obtain ⟨t, hx, hout, hfs, hempty⟩ := exec_endsJob hd hend
  rw [flush_of_openFailed hne hf ho] at hout hfs
  exact ⟨t, hx, by simpa [dropBuffered, hf] using hout, hfs, hempty⟩

/-- Settles O23: the flush does nothing, and the file is closed where one is open. -/
theorem jobEndWithEmptyBuffer : Obligations.JobEndWithEmptyBuffer := by
  intro i s d hd hend hempty
  obtain ⟨t, hx, hout, hfs, -⟩ := exec_endsJob hd hend
  rw [flush_of_empty hempty] at hout hfs
  exact ⟨t, hx, hfs, fun n hf => by simpa [hf] using hout, fun hf => by simpa [hf] using hout⟩

end Sys2Proof.Machine
/-! SUPPORT. What the register accesses leave alone, 4096 bytes sent one after the other, and the names of files
(20_memory.md). -/

namespace Sys2Proof.Machine

/-! ## The register accesses -/

section
variable {s t : State} {d d' : DeviceState} {v : Byte}

theorem exec_wrControl_absent (hd : s.dev = .absent) (v : Byte) : exec (.wrControl v) s = .next (s.answer none) := by
  simp only [exec, execWrControl, hd]

/-- A write that makes neither edge only copies its flags and stores its byte (R96). -/
theorem exec_wrControl_no_edge (hd : s.dev = .present d) (hs : strobeEdge d.control v = false)
    (hr : resetEdge d.control v = false) :
    exec (.wrControl v) s = .next { s with
      dev := .present { d with autofeed := bit v 1, selected := selectedAfter v d.selected, control := v },
      ret := none } := by
  rw [exec_wrControl_some hd (writeControl_no_strobe d s hs), controlLevels_no_reset d hr]
  rfl

theorem writeControl_stores {r : DeviceState × State} (hr : writeControl v d s = some r) :
    r.1.control = v ∧ r.1.autofeed = bit v 1 := by
  cases hs : strobeEdge d.control v with
  | false =>
    obtain ⟨_, _, _, hlevels⟩ := controlLevels_eq d v
    rw [writeControl_no_strobe d s hs, hlevels] at hr
    cases hr
    exact ⟨rfl, rfl⟩
  | true =>
    obtain ⟨_, -, rfl⟩ := writeControl_strobe_eq hs hr
    exact ⟨rfl, rfl⟩

/-- A byte written over itself makes no edge (R43, R98, R99). -/
theorem strobeEdge_self (v : Byte) : strobeEdge v v = false := strobeEdge_false id
theorem resetEdge_self (v : Byte) : resetEdge v v = false := resetEdge_false id

theorem selectedAfter_eq_or (v : Byte) (b : Bool) : selectedAfter v b = (b || bit v 3) := by
  unfold selectedAfter
  cases bit v 3 <;> simp

/-- After a CONTROL write of a device that is then Present, the same write makes no edge, so it only sets `selected` (R43). -/
theorem exec_wrControl_twice (hx : exec (.wrControl v) s = .next t) (hd' : t.dev = .present d') :
    exec (.wrControl v) t = .next { t with dev := .present { d' with selected := d'.selected || bit v 3 } } := by
  cases hd : s.dev with
  | absent =>
    rw [exec_wrControl_absent hd] at hx
    cases hx
    cases hd.symm.trans hd'
  | present d =>
    obtain ⟨r, hr, rfl⟩ := exec_wrControl_next hx hd
    obtain ⟨hcontrol, hauto⟩ := writeControl_stores hr
    cases hd'
    rw [exec_wrControl_no_edge (d := r.1) rfl (by rw [hcontrol]; exact strobeEdge_self v)
      (by rw [hcontrol]; exact resetEdge_self v), selectedAfter_eq_or, ← hauto, ← hcontrol]
    rfl

/-- Only a CONTROL write can stop at a full buffer (R47). -/
theorem exec_ne_bufferFull {i : Instr} (h : ∀ v, i ≠ .wrControl v) : exec i s ≠ .fault .bufferFull := by
  cases i with
  | wrControl v => exact absurd rfl (h v)
  | rdData => nofun
  | rdControl => nofun
  | rdStatus => simp only [exec, execRdStatus, unsuppliedRead]; split <;> simp
  | wrData v => simp only [exec, execWrData]; split <;> simp
  | init => simp only [exec, execInit, refuseEvent]; split <;> simp
  | close => simp only [exec, execClose]; split <;> simp
  | firePulse =>
    simp only [exec, execFirePulse]
    split
    · simp
    · split <;> simp
  | fireTimeout =>
    simp only [exec, execFireTimeout]
    split
    · simp
    · split <;> simp
  | advance delta => simp only [exec, execAdvance]; split <;> simp

/-- The stop at a full buffer needs a cursor at CAPACITY, which the invariant excludes (R34 I1, R48). -/
theorem exec_wrControl_ne_bufferFull (h : s.Inv) (v : Byte) : exec (.wrControl v) s ≠ .fault .bufferFull := by
  cases hd : s.dev with
  | absent => simp [exec_wrControl_absent hd]
  | present d =>
    have hlt : d.cursor.val < Config.capacity := (h.device d hd).cursor_lt
    cases hr : writeControl v d s with
    | some r => simp [exec_wrControl_some hd hr]
    | none =>
      obtain ⟨-, hfull⟩ := (writeControl_none d s).mp hr
      exact absurd hfull hlt.ne

/-- A flush after a byte is stored changes no file but the one it writes to. -/
theorem storeByte_other_files {full : DeviceState} (h : FileSystem.wf s.fs) {m : FileName} (hm : m ≠ sinkName full s) :
    FileSystem.content (storeByte full s).2.fs m = FileSystem.content s.fs m := by
  obtain ⟨-, h'⟩ | ⟨-, h'⟩ := storeByte_cases full s <;> rw [h']
  exact flush_other_files h hm

end

/-! ## Sending bytes one after the other (R72) -/

theorem execAll_cons {i : Instr} {s t : State} (h : exec i s = .next t) (is : List Instr) :
    execAll (i :: is) s = execAll is t := by
  simp only [execAll, h]

theorem execAll_append {is : List Instr} {s t : State} (h : execAll is s = .next t) (js : List Instr) :
    execAll (is ++ js) s = execAll js t := by
  induction is generalizing s with
  | nil => cases h; rfl
  | cons i is ih =>
    cases hi : exec i s with
    | next u =>
      rw [execAll_cons hi] at h
      rw [List.cons_append, execAll_cons hi]
      exact ih h
    | fault r => simp [execAll, hi] at h
    | refused r => simp [execAll, hi] at h

/-- From the device `d` in `s` to the device `d'` in `s'` the bytes `bs` are buffered: they stand after those buffered before,
with the same file open, nothing emitted, and the same draws to come. -/
structure Buffers (d : DeviceState) (s : State) (bs : List Byte) (d' : DeviceState) (s' : State) : Prop where
  device : s'.dev = .present d'
  buf_wf : Memory.wf d'.buf
  bytes : bufferedBytes d' = bufferedBytes d ++ bs
  file : d'.outputFile = d.outputFile
  out : s'.out = s.out
  draws : s'.draws = s.draws

section
variable {d d' d'' : DeviceState} {s s' s'' : State} {b v c : Byte} {bs cs : List Byte}

theorem Buffers.trans (h : Buffers d s bs d' s') (h' : Buffers d' s' cs d'' s'') : Buffers d s (bs ++ cs) d'' s'' where
  device := h'.device
  buf_wf := h'.buf_wf
  bytes := by rw [h'.bytes, h.bytes, List.append_assoc]
  file := h'.file.trans h.file
  out := h'.out.trans h.out
  draws := h'.draws.trans h.draws

theorem Buffers.cursor (h : Buffers d s bs d' s') : d'.cursor.val = d.cursor.val + bs.length := by
  simpa using congrArg List.length h.bytes

/-- A STROBE edge that does not fill the buffer buffers the latch (R99, R101). -/
theorem exec_wrControl_buffers (hd : s.dev = .present d) (hwf : Memory.wf d.buf) (hv : bit v 0 = false)
    (hold : bit d.control 0 = true) (hlt : d.cursor.val + 1 < Config.capacity) :
    ∃ t d', exec (.wrControl v) s = .next t ∧ Buffers d s [d.dataLatch] d' t := by
  have hs : strobeEdge d.control v = true := strobeEdge_true hv hold
  cases hr : writeControl v d s with
  | none =>
    have hfull := (writeControl_none d s).mp hr
    omega
  | some r =>
    obtain ⟨full, hfull, rfl⟩ := writeControl_strobe_eq hs hr
    obtain ⟨hroom, hcursor, hbuf, hframe⟩ := bufAppend_some hfull
    have hst : storeByte full s = (full, s) := if_neg (by omega)
    have hbytes := bufferedBytes_bufAppend hwf hfull
    rw [hst] at hr
    refine ⟨_, _, exec_wrControl_some hd hr, rfl, ?_, hbytes, ?_, rfl, rfl⟩
    · rw [hbuf]
      exact Memory.write_wf hwf hroom _
    · rw [hframe]

/-- The two bytes of a `strobe` raise and lower bit 0 (R85). -/
theorem strobe_raises (c : Byte) : bit (c ||| 0x01#8) 0 = true := by simp [bit]
theorem strobe_lowers (c : Byte) : bit (c &&& 0xFE#8) 0 = false := by simp [bit]

/-- The two accesses of a `send` before its STROBE edge latch the byte and raise bit 0; they buffer nothing (R85). -/
theorem send_begins (b c : Byte) (hd : s.dev = .present d) (hwf : Memory.wf d.buf) :
    ∃ u d', execAll (send b c) s = execAll [.wrControl (c &&& 0xFE#8)] u ∧ Buffers d s [] d' u ∧ d'.dataLatch = b ∧
      bit d'.control 0 = true := by
  have hhigh : bit (c ||| 0x01#8) 0 = true := strobe_raises c
  have hs : strobeEdge (d.latch b).control (c ||| 0x01#8) = false := strobeEdge_false fun _ => hhigh
  obtain ⟨hlatch, -, hbuf, hcursor, hfile, -⟩ := controlLevels_data (d.latch b) (c ||| 0x01#8)
  have hraise := exec_wrControl_some (s := (rejoin (d.latch b, s)).answer none) rfl (writeControl_no_strobe _ _ hs)
  refine ⟨_, _, (execAll_cons (exec_wrData_present hd b) _).trans (execAll_cons hraise _),
    ⟨rfl, ?_, ?_, hfile, rfl, rfl⟩, hlatch, hhigh⟩
  · rw [DeviceState.setControl_buf, hbuf]
    exact hwf
  · rw [List.append_nil]
    exact bufferedBytes_congr hbuf hcursor

theorem send_buffers (b c : Byte) (hd : s.dev = .present d) (hwf : Memory.wf d.buf)
    (hlt : d.cursor.val + 1 < Config.capacity) : ∃ t d', execAll (send b c) s = .next t ∧ Buffers d s [b] d' t := by
  obtain ⟨u, d₁, hrun, h₁, rfl, hhigh⟩ := send_begins b c hd hwf
  have hcursor := h₁.cursor
  obtain ⟨t, d', hx, h'⟩ := exec_wrControl_buffers h₁.device h₁.buf_wf (strobe_lowers c) hhigh (by simpa [hcursor] using hlt)
  exact ⟨t, d', by rw [hrun, execAll_cons hx, execAll], h₁.trans h'⟩

/-- Bytes that leave a slot free are all buffered, and nothing is emitted (R72). -/
theorem sends_buffer (c : Byte) (hd : s.dev = .present d) (hwf : Memory.wf d.buf)
    (hlt : d.cursor.val + bs.length < Config.capacity) :
    ∃ t d', execAll (bs.flatMap fun b => send b c) s = .next t ∧ Buffers d s bs d' t := by
  induction bs generalizing d s with
  | nil => exact ⟨s, d, rfl, hd, hwf, by simp, rfl, rfl, rfl⟩
  | cons b bs ih =>
    rw [List.length_cons] at hlt
    obtain ⟨u, d₁, hrun, h₁⟩ := send_buffers b c hd hwf (by omega)
    have hcursor : d₁.cursor.val = d.cursor.val + 1 := h₁.cursor
    obtain ⟨t, d', hrun', h'⟩ := ih h₁.device h₁.buf_wf (by omega)
    exact ⟨t, d', by rw [List.flatMap_cons, execAll_append hrun, hrun'], h₁.trans h'⟩

/-- The byte that fills the buffer is sent through the flush of all of them (R48). -/
theorem send_fills (b c : Byte) (hd : s.dev = .present d) (hwf : Memory.wf d.buf)
    (hcap : d.cursor.val + 1 = Config.capacity) :
    ∃ full u t d', bufferedBytes full = bufferedBytes d ++ [b] ∧ full.cursor.val ≠ 0 ∧
      full.outputFile = d.outputFile ∧ u.out = s.out ∧ u.draws = s.draws ∧
      execAll (send b c) s = .next t ∧ t.dev = .present d' ∧ t.out = (flush full u).2.out ∧ d'.cursor.val = 0 ∧
      d'.outputFile = (flush full u).1.outputFile := by
  obtain ⟨u, d₁, hrun, h₁, rfl, hhigh⟩ := send_begins b c hd hwf
  have hcursor := h₁.cursor
  obtain ⟨full, t, d', hfull, hne, hfile, hx, hd', hout, -, hempty, hfile', -⟩ :=
    exec_wrControl_fills h₁.device (strobe_lowers c) hhigh (by simpa [hcursor] using hcap)
  refine ⟨full, u, t, d', ?_, hne, hfile.trans h₁.file, h₁.out, h₁.draws, ?_, hd', hout, hempty, hfile'⟩
  · rw [bufferedBytes_bufAppend h₁.buf_wf hfull, h₁.bytes, List.append_nil]
  · rw [hrun, execAll_cons hx, execAll]

end

/-! ## The obligations of the accesses and of the full buffer -/

/-- Settles O9: a read and a latch do not depend on themselves; for the CONTROL write this is `exec_wrControl_twice`. -/
theorem repeatedAccessAddsNothing : Obligations.RepeatedAccessAddsNothing := by
  refine ⟨?_, ?_, fun s t v d' hx hd' => exec_wrControl_twice hx hd'⟩
  · rintro s t ⟨d, hd⟩ hx
    rw [exec_rdStatus_present hd] at hx
    cases hx
    exact exec_rdStatus_present hd
  · rintro s t v ⟨d, hd⟩ hx
    rw [exec_wrData_present hd] at hx
    cases hx
    exact exec_wrData_present (s := (rejoin (d.latch v, s)).answer none) rfl v

/-- Settles O48: taking the event keeps the invariant, under which no operation meets a full buffer. -/
theorem bufferNeverRefusesByte : Obligations.BufferNeverRefusesByte := by
  intro s h
  cases ht : s.trace with
  | nil => simp [step, fetch, ht]
  | cons e rest =>
    cases hw : decodeWord e.word with
    | error r => simp [step_of_reserved ht hw]
    | ok i =>
      rw [step_of_decode ht hw]
      by_cases hi : ∃ v, i = .wrControl v
      · obtain ⟨v, rfl⟩ := hi
        have htaken : (s.take e.draws rest).Inv := h.congr rfl rfl rfl rfl
        exact exec_wrControl_ne_bufferFull htaken v
      · exact exec_ne_bufferFull fun v hv => hi ⟨v, hv⟩

/-- Settles O39: none of them does more than answer, but for the latch. -/
theorem frameReadsAndDataWrite : Obligations.FrameReadsAndDataWrite := by
  intro i s t hi hx
  obtain ⟨_, rfl, -, -, -, hidle⟩ | ⟨v, d, rfl, hd, rfl⟩ | ⟨_, _, _, rfl, -⟩ | ⟨rfl, -⟩ | ⟨_, rfl, -⟩ |
    ⟨_, rfl, -⟩ | ⟨_, rfl, -⟩ | ⟨_, rfl, -⟩ | ⟨_, rfl, -⟩ := exec_cases hx
  · refine ⟨rfl, rfl, rfl, rfl, rfl, fun _ => rfl, id, fun d hd => ⟨d, hd, fun _ => rfl, ?_⟩⟩
    obtain habs | rfl | rfl | rfl := hidle
    · cases hd.symm.trans habs
    all_goals rfl
  · refine ⟨rfl, rfl, rfl, rfl, rfl, fun _ => rfl, fun habs => ?_, fun d' hd' => ?_⟩
    · cases hd.symm.trans habs
    · cases hd.symm.trans hd'
      exact ⟨d.latch v, rfl, fun _ => rfl, rfl⟩
  all_goals simp at hi

/-- Settles O40: without a STROBE edge only the levels change; with one the byte is stored, and a full buffer is flushed. -/
theorem frameControlWrite : Obligations.FrameControlWrite := by
  intro s t v hx
  cases hd : s.dev with
  | absent =>
    rw [exec_wrControl_absent hd] at hx
    cases hx
    exact ⟨rfl, rfl, rfl, rfl, fun _ => ⟨hd, rfl, rfl⟩, nofun⟩
  | present d =>
    obtain ⟨r, hr, rfl⟩ := exec_wrControl_next hx hd
    have hstate := writeControl_state hr
    refine ⟨(congrArg State.now hstate :), (congrArg State.refused hstate :), (congrArg State.draws hstate :),
      (congrArg State.trace hstate :), nofun, ?_⟩
    rintro _ ⟨⟩ hwf hfs
    refine ⟨r.1, rfl, ?_⟩
    cases hs : strobeEdge d.control v with
    | false =>
      rw [writeControl_no_strobe d s hs] at hr
      cases hr
      obtain ⟨hlatch, -, hbuf, hcursor, hfile, hbusy, hint, herr⟩ := controlLevels_data d v
      have hread : ∀ a, Memory.read (controlLevels v d).buf a = Memory.read d.buf a := fun a => by rw [hbuf]
      refine ⟨hlatch, hbusy, hint, herr, fun a _ => hread a, fun _ => ⟨hcursor, hread⟩,
        fun _ => ⟨hfile, rfl, fun _ => rfl⟩, fun _ hreset => ?_, fun _ _ => rfl⟩
      rw [controlLevels_no_reset d hreset]
      exact ⟨rfl, rfl, rfl⟩
    | true =>
      obtain ⟨full, hfull, rfl⟩ := writeControl_strobe_eq hs hr
      obtain ⟨-, hcursor, hbuf, hframe⟩ := bufAppend_some hfull
      have hname : sinkName full s = sinkName d s := by rw [hframe]; rfl
      refine ⟨?_, ?_, ?_, ?_, fun a ha => ?_, nofun, fun hroom => ?_, nofun,
        fun m hm => storeByte_other_files hfs (hname ▸ hm)⟩
      iterate 4 rw [storeByte_device, hframe]
      · rw [storeByte_device, hbuf, Memory.read_write hwf.1, if_neg ha]
      · have hst : storeByte full s = (full, s) := if_neg (hcursor ▸ hroom.resolve_left nofun)
        rw [hst]
        exact ⟨by rw [hframe], rfl, fun _ => rfl⟩

/-- Settles O19: the first 4095 are buffered, and the last goes through the flush of all 4096. -/
theorem capacityBytesFlushOnce : Obligations.CapacityBytesFlushOnce := by
  intro s d c bs hd hwf hempty hlen
  obtain ⟨init, b, rfl⟩ : ∃ init b, bs = init ++ [b] :=
    (List.eq_nil_or_concat' bs).resolve_left fun hnil => by simp [hnil] at hlen
  rw [List.dropLast_concat]
  have hlen' : init.length + 1 = Config.capacity := by simpa using hlen
  obtain ⟨u, d₁, hrun, h₁⟩ := sends_buffer (bs := init) c hd hwf (by omega)
  obtain ⟨full, w, t, d', hbytes, hne, hfile, hout, hdraws, hlast, hd', hout', hcursor, hfile'⟩ :=
    send_fills b c h₁.device h₁.buf_wf (by rw [h₁.cursor]; omega)
  have hall : bufferedBytes full = init ++ [b] := by
    rw [hbytes, h₁.bytes, bufferedBytes_of_empty d hempty, List.nil_append]
  have hsame : full.outputFile = d.outputFile := hfile.trans h₁.file
  have hwout : w.out = s.out := hout.trans h₁.out
  have hwdraws : w.draws = s.draws := hdraws.trans h₁.draws
  refine ⟨⟨u, hrun, h₁.out⟩, t, d', ?_, hd', hcursor, fun n hf => ?_, fun hf ho => ?_, fun hf ho => ?_⟩
  · rw [List.flatMap_append, execAll_append hrun]
    simpa using hlast
  · have hopen : full.outputFile = some n := hsame.trans hf
    rw [flush_of_open hne hopen] at hout' hfile'
    exact ⟨by simpa [writeSink, hall, hwout] using hout', hfile'.trans hopen⟩
  · rw [flush_of_openOk hne (hsame.trans hf) (hwdraws ▸ ho), hwdraws] at hout' hfile'
    exact ⟨by simpa [writeSink, openSink, hall, hwout] using hout', hfile'⟩
  · have hclosed : full.outputFile = none := hsame.trans hf
    rw [flush_of_openFailed hne hclosed (hwdraws ▸ ho)] at hout' hfile'
    exact ⟨by simpa [dropBuffered, hwout] using hout', hfile'.trans hclosed⟩

end Sys2Proof.Machine
/-! SUPPORT. The name of a file spells its stamp (20_memory.md). -/

namespace Sys2Proof.Machine

/-! ## Decimal digits -/

/-- A digit is one of the ten decimal characters, and writes its number (R58). -/
theorem digit_spec (n : Nat) : '0' ≤ digit n ∧ digit n ≤ '9' ∧ (digit n).toNat = 48 + n % 10 := by
  have hlt : n % 10 < 10 := Nat.mod_lt _ (by decide)
  unfold digit
  generalize n % 10 = k at hlt ⊢
  revert k
  decide

theorem digitsNumber_append_digit (ds : List Char) (n : Nat) :
    digitsNumber (ds ++ [digit n]) = digitsNumber ds * 10 + n % 10 := by
  obtain ⟨-, -, hvalue⟩ := digit_spec n
  simp [digitsNumber, hvalue]

theorem digitsNumber_append_twoDigits (ds : List Char) (n : Nat) :
    digitsNumber (ds ++ twoDigits n) = digitsNumber ds * 100 + n % 100 := by
  have hsplit : ds ++ twoDigits n = (ds ++ [digit (n / 10)]) ++ [digit n] := by simp [twoDigits]
  rw [hsplit, digitsNumber_append_digit, digitsNumber_append_digit]
  omega

theorem digitsNumber_fourDigits (n : Nat) : digitsNumber (fourDigits n) = n % 10000 := by
  have htwo : digitsNumber (twoDigits (n / 100)) = n / 100 % 100 := by
    simpa [digitsNumber] using digitsNumber_append_twoDigits [] (n / 100)
  rw [fourDigits, digitsNumber_append_twoDigits, htwo]
  omega

/-! ## The two parts of a name -/

/-- `<YYYYMMDD>` of a stamp (R58). -/
def dateDigits (t : WallClock) : List Char := fourDigits t.year ++ twoDigits t.month ++ twoDigits t.day

/-- `<HHMMSS>` of a stamp (R58). -/
def timeDigits (t : WallClock) : List Char := twoDigits t.hour ++ twoDigits t.minute ++ twoDigits t.second

section
variable (t : WallClock)

theorem fileName_eq :
    fileName t = "printer/print_".toList ++ dateDigits t ++ ['_'] ++ timeDigits t ++ ".prn".toList := by
  unfold fileName dateDigits timeDigits
  -- the two literals as letters: no proof need evaluate them
  generalize "printer/print_".toList = dir
  generalize ".prn".toList = suffix
  simp only [List.append_assoc]

@[simp] theorem dateDigits_length : (dateDigits t).length = 8 := rfl
@[simp] theorem timeDigits_length : (timeDigits t).length = 6 := rfl

theorem decimal_of_mem_twoDigits {n : Nat} {ch : Char} (h : ch ∈ twoDigits n) : '0' ≤ ch ∧ ch ≤ '9' := by
  obtain rfl | rfl : ch = digit (n / 10) ∨ ch = digit n := by simpa [twoDigits] using h
  · obtain ⟨hlow, hhigh, -⟩ := digit_spec (n / 10)
    exact ⟨hlow, hhigh⟩
  · obtain ⟨hlow, hhigh, -⟩ := digit_spec n
    exact ⟨hlow, hhigh⟩

theorem decimal_of_mem_stamp {ch : Char} (h : ch ∈ dateDigits t ++ timeDigits t) : '0' ≤ ch ∧ ch ≤ '9' := by
  simp only [dateDigits, timeDigits, fourDigits, List.mem_append, or_assoc] at h
  obtain h | h | h | h | h | h | h := h <;> exact decimal_of_mem_twoDigits h

theorem digitsNumber_dateDigits :
    digitsNumber (dateDigits t) = t.year.val * 10000 + t.month.val * 100 + t.day.val := by
  rw [dateDigits, digitsNumber_append_twoDigits, digitsNumber_append_twoDigits, digitsNumber_fourDigits]
  omega

theorem digitsNumber_timeDigits :
    digitsNumber (timeDigits t) = t.hour.val * 10000 + t.minute.val * 100 + t.second.val := by
  have htwo : digitsNumber (twoDigits t.hour) = t.hour.val % 100 := by
    simpa [digitsNumber] using digitsNumber_append_twoDigits [] t.hour
  rw [timeDigits, digitsNumber_append_twoDigits, digitsNumber_append_twoDigits, htwo]
  omega

end

/-- The parts of the name stand at fixed places, so the name determines both of them (R58). -/
theorem digits_eq_of_fileName_eq {t u : WallClock} (h : fileName t = fileName u) :
    dateDigits t = dateDigits u ∧ timeDigits t = timeDigits u := by
  simp only [fileName_eq, List.append_assoc, List.append_cancel_left_eq] at h
  obtain ⟨hdate, hrest⟩ := List.append_inj h rfl
  simp only [List.append_cancel_left_eq] at hrest
  exact ⟨hdate, List.append_cancel_right hrest⟩

/-- The numbers of the date and of the time determine each field, which has at most its digits (R62, R176). -/
theorem stamp_eq_of_fileName_eq {t u : WallClock} (h : fileName t = fileName u) : t = u := by
  obtain ⟨hdate, htime⟩ := digits_eq_of_fileName_eq h
  have hd := congrArg digitsNumber hdate
  have ht := congrArg digitsNumber htime
  rw [digitsNumber_dateDigits, digitsNumber_dateDigits] at hd
  rw [digitsNumber_timeDigits, digitsNumber_timeDigits] at ht
  cases t
  cases u
  simp only [WallClock.mk.injEq, Fin.ext_iff] at hd ht ⊢
  omega

/-- Settles O60: the date and the time of the stamp, and then `stamp_eq_of_fileName_eq`. -/
theorem fileNameSpellsStamp : Obligations.FileNameSpellsStamp := by
  refine ⟨fun t => ⟨dateDigits t, timeDigits t, ?_, dateDigits_length t, timeDigits_length t,
    fun _ h => decimal_of_mem_stamp t h, digitsNumber_dateDigits t, digitsNumber_timeDigits t⟩,
    fun _ _ h => stamp_eq_of_fileName_eq h⟩
  rw [filePath, fileName_eq]
  simp

end Sys2Proof.Machine
/-! SUPPORT. Event words: the fields of a word, the decoder format by format, the encoder as its inverse, and the opcode map
(30_encoding.md). -/

namespace Sys2Proof

/-! ## Fields of a word -/

section
variable (k a : BitVec 2) (v : Byte) (t : BitVec 14) (w : Word) (n : Nat)

@[simp] theorem fieldK_packWord : fieldK (packWord k a v) = k := Laws.EncodedFormat.fieldK_packWord k a v

@[simp] theorem fieldZ_packWord : fieldZ (packWord k a v) = 0#4 :=
  (BitVec.extractLsb'_append_eq_of_add_le (by decide)).trans BitVec.extractLsb'_append_eq_left

@[simp] theorem fieldA_packWord : fieldA (packWord k a v) = a :=
  (BitVec.extractLsb'_append_eq_of_add_le (by decide)).trans <|
    (BitVec.extractLsb'_append_eq_of_add_le (by decide)).trans BitVec.extractLsb'_append_eq_left

@[simp] theorem fieldD_packWord : fieldD (packWord k a v) = v :=
  (BitVec.extractLsb'_append_eq_of_add_le (by decide)).trans <|
    (BitVec.extractLsb'_append_eq_of_add_le (by decide)).trans BitVec.extractLsb'_append_eq_right

@[simp] theorem fieldK_advWord : fieldK (3#2 ++ t) = 3#2 := BitVec.extractLsb'_append_eq_left

@[simp] theorem fieldDelta_advWord : fieldDelta (3#2 ++ t) = t.toNat :=
  congrArg BitVec.toNat BitVec.extractLsb'_append_eq_right

/-! The fields as numbers (R13, R73). -/

theorem toNat_fieldK : (fieldK w).toNat = w.toNat / 16384 := by
  have hlt : w.toNat < 65536 := w.isLt
  simp only [fieldK, BitVec.extractLsb'_toNat, Nat.shiftRight_eq_div_pow]
  omega

theorem toNat_fieldZ : (fieldZ w).toNat = w.toNat / 1024 % 16 := by
  simp [fieldZ, Nat.shiftRight_eq_div_pow]

theorem toNat_fieldA : (fieldA w).toNat = w.toNat / 256 % 4 := by
  simp [fieldA, Nat.shiftRight_eq_div_pow]

theorem toNat_fieldD : (fieldD w).toNat = w.toNat % 256 := by simp [fieldD]

theorem fieldDelta_eq : fieldDelta w = w.toNat % 16384 := by simp [fieldDelta]

/-! The fields of a numeral. -/

@[simp] theorem fieldK_ofNat : fieldK (BitVec.ofNat 16 n) = BitVec.ofNat 2 (n / 16384) := by
  apply BitVec.eq_of_toNat_eq
  simp only [toNat_fieldK, BitVec.toNat_ofNat]
  omega

@[simp] theorem fieldZ_ofNat : fieldZ (BitVec.ofNat 16 n) = BitVec.ofNat 4 (n / 1024) := by
  apply BitVec.eq_of_toNat_eq
  simp only [toNat_fieldZ, BitVec.toNat_ofNat]
  omega

@[simp] theorem fieldA_ofNat : fieldA (BitVec.ofNat 16 n) = BitVec.ofNat 2 (n / 256) := by
  apply BitVec.eq_of_toNat_eq
  simp only [toNat_fieldA, BitVec.toNat_ofNat]
  omega

@[simp] theorem fieldD_ofNat : fieldD (BitVec.ofNat 16 n) = BitVec.ofNat 8 n := by
  apply BitVec.eq_of_toNat_eq
  simp only [toNat_fieldD, BitVec.toNat_ofNat]
  omega

theorem fieldK_cases : fieldK w = 0#2 ∨ fieldK w = 1#2 ∨ fieldK w = 2#2 ∨ fieldK w = 3#2 := by
  generalize fieldK w = k
  revert k
  decide

theorem fieldA_cases : fieldA w = 0#2 ∨ fieldA w = 1#2 ∨ fieldA w = 2#2 ∨ fieldA w = 3#2 := by
  generalize fieldA w = a
  revert a
  decide

end

section
variable {w w' : Word}

/-- The four fields of R73 cover a word. -/
theorem word_eq_iff :
    w = w' ↔ fieldK w = fieldK w' ∧ fieldZ w = fieldZ w' ∧ fieldA w = fieldA w' ∧ fieldD w = fieldD w' := by
  simp only [← BitVec.toNat_inj, toNat_fieldK, toNat_fieldZ, toNat_fieldA, toNat_fieldD]
  omega

/-- K and delta cover a word too (R77). -/
theorem word_eq_of_fieldDelta (hK : fieldK w = fieldK w') (hdelta : fieldDelta w = fieldDelta w') : w = w' := by
  simp only [← BitVec.toNat_inj, toNat_fieldK, fieldDelta_eq] at hK hdelta ⊢
  omega

end

/-! ## The decoder, format by format (R74) -/

section
variable {w : Word} {i : Instr}

theorem decodeWord_regRead (hK : fieldK w = 0#2) :
    decodeWord w = if fieldZ w = 0#4 then decodeRead w else .error .highBits := by
  simp [decodeWord, formatOf, hK]

theorem decodeWord_regWrite (hK : fieldK w = 1#2) :
    decodeWord w = if fieldZ w = 0#4 then decodeWrite w else .error .highBits := by
  simp [decodeWord, formatOf, hK]

theorem decodeWord_evt (hK : fieldK w = 2#2) :
    decodeWord w = if fieldZ w = 0#4 then decodeEvent w else .error .highBits := by
  simp [decodeWord, formatOf, hK]

theorem decodeWord_adv (hK : fieldK w = 3#2) : decodeWord w = .ok (.advance (fieldDelta w)) := by
  simp [decodeWord, formatOf, hK]

/-! Which operation a word of a format spells (R79). -/

theorem decodeRead_ok_iff : decodeRead w = .ok i ↔ fieldD w = 0#8 ∧
    (fieldA w = 0#2 ∧ .rdData = i ∨ fieldA w = 1#2 ∧ .rdStatus = i ∨ fieldA w = 2#2 ∧ .rdControl = i) := by
  obtain hA | hA | hA | hA := fieldA_cases w
  all_goals by_cases hD : fieldD w = 0#8 <;> simp [decodeRead, HostReg.offset, hA, hD]

theorem decodeWrite_ok_iff : decodeWrite w = .ok i ↔
    fieldA w = 0#2 ∧ .wrData (fieldD w) = i ∨ fieldA w = 2#2 ∧ .wrControl (fieldD w) = i := by
  obtain hA | hA | hA | hA := fieldA_cases w
  all_goals simp [decodeWrite, HostReg.offset, hA]

theorem decodeEvent_ok_iff : decodeEvent w = .ok i ↔ fieldD w = 0#8 ∧
    (fieldA w = 0#2 ∧ .init = i ∨ fieldA w = 1#2 ∧ .close = i ∨ fieldA w = 2#2 ∧ .firePulse = i ∨
      fieldA w = 3#2 ∧ .fireTimeout = i) := by
  obtain hA | hA | hA | hA := fieldA_cases w
  all_goals by_cases hD : fieldD w = 0#8 <;> simp [decodeEvent, hA, hD]

/-! Which words of a format are reserved (R81). -/

theorem decodeRead_reserved_iff : (∃ r, decodeRead w = .error r) ↔ fieldA w = 3#2 ∨ fieldD w ≠ 0#8 := by
  by_cases hD : fieldD w = 0#8
  · obtain hA | hA | hA | hA := fieldA_cases w <;> simp [decodeRead, HostReg.offset, hA, hD]
  · obtain hA | hA | hA | hA := fieldA_cases w <;> simp [decodeRead, hA, hD]

theorem decodeWrite_reserved_iff : (∃ r, decodeWrite w = .error r) ↔ fieldA w = 1#2 ∨ fieldA w = 3#2 := by
  obtain hA | hA | hA | hA := fieldA_cases w <;> simp [decodeWrite, HostReg.offset, hA]

theorem decodeEvent_reserved_iff : (∃ r, decodeEvent w = .error r) ↔ fieldD w ≠ 0#8 := by
  by_cases hD : fieldD w = 0#8
  · obtain hA | hA | hA | hA := fieldA_cases w <;> simp [decodeEvent, hA, hD]
  · simp [decodeEvent, hD]

/-- The classes (a) to (e) of R81, in the fields of the word. -/
theorem decodeWord_reserved_iff : (∃ r, decodeWord w = .error r) ↔
    (fieldK w ≠ 3#2 ∧ fieldZ w ≠ 0#4) ∨ (fieldK w = 0#2 ∧ (fieldA w = 3#2 ∨ fieldD w ≠ 0#8)) ∨
      (fieldK w = 1#2 ∧ fieldA w = 1#2) ∨ (fieldK w = 1#2 ∧ fieldA w = 3#2) ∨ (fieldK w = 2#2 ∧ fieldD w ≠ 0#8) := by
  by_cases hZ : fieldZ w = 0#4
  · obtain hK | hK | hK | hK := fieldK_cases w
    · simpa [decodeWord_regRead hK, hK, hZ] using decodeRead_reserved_iff
    · simpa [decodeWord_regWrite hK, hK, hZ] using decodeWrite_reserved_iff
    · simpa [decodeWord_evt hK, hK, hZ] using decodeEvent_reserved_iff
    · simp [decodeWord_adv hK, hK]
  · obtain hK | hK | hK | hK := fieldK_cases w
    · simp [decodeWord_regRead hK, hK, hZ]
    · simp [decodeWord_regWrite hK, hK, hZ]
    · simp [decodeWord_evt hK, hK, hZ]
    · simp [decodeWord_adv hK, hK]

/-! ## The encoder undoes the decoder, format by format (R79, R80) -/

theorem encode_of_decodeRead (hK : fieldK w = 0#2) (hZ : fieldZ w = 0#4) (h : decodeRead w = .ok i) :
    encode i = w ∧ i.wellFormed = true := by
  obtain ⟨hD, ⟨hA, rfl⟩ | ⟨hA, rfl⟩ | ⟨hA, rfl⟩⟩ := decodeRead_ok_iff.mp h
  all_goals exact ⟨by simp [word_eq_iff, encode, HostReg.offset, hK, hZ, hA, hD], rfl⟩

theorem encode_of_decodeWrite (hK : fieldK w = 1#2) (hZ : fieldZ w = 0#4) (h : decodeWrite w = .ok i) :
    encode i = w ∧ i.wellFormed = true := by
  obtain ⟨hA, rfl⟩ | ⟨hA, rfl⟩ := decodeWrite_ok_iff.mp h
  all_goals exact ⟨by simp [word_eq_iff, encode, HostReg.offset, hK, hZ, hA], rfl⟩

theorem encode_of_decodeEvent (hK : fieldK w = 2#2) (hZ : fieldZ w = 0#4) (h : decodeEvent w = .ok i) :
    encode i = w ∧ i.wellFormed = true := by
  obtain ⟨hD, ⟨hA, rfl⟩ | ⟨hA, rfl⟩ | ⟨hA, rfl⟩ | ⟨hA, rfl⟩⟩ := decodeEvent_ok_iff.mp h
  all_goals exact ⟨by simp [word_eq_iff, encode, hK, hZ, hA, hD], rfl⟩

theorem encode_advance_fieldDelta (hK : fieldK w = 3#2) : encode (.advance (fieldDelta w)) = w := by
  refine word_eq_of_fieldDelta ?_ ?_
  · rw [encode, fieldK_advWord, hK]
  · rw [encode, fieldDelta_advWord, BitVec.toNat_ofNat, fieldDelta_eq]
    omega

theorem wellFormed_advance_iff {delta : Nat} : (Instr.advance delta).wellFormed = true ↔ delta ≤ maxDelta := by
  simp [Instr.wellFormed]

end

/-- Settles O52: the fields of the word are those it was packed from. -/
theorem decodeOfEncode : Obligations.DecodeOfEncode := by
  intro i hi
  cases i with
  | rdData | rdStatus | rdControl => simp [encode, decodeWord_regRead, decodeRead, HostReg.offset]
  | wrData v | wrControl v => simp [encode, decodeWord_regWrite, decodeWrite, HostReg.offset]
  | init | close | firePulse | fireTimeout => simp [encode, decodeWord_evt, decodeEvent]
  | advance delta =>
    have hlt : delta < 2 ^ 14 := Nat.lt_succ_of_le (wellFormed_advance_iff.mp hi)
    rw [encode, decodeWord_adv (fieldK_advWord _), fieldDelta_advWord, BitVec.toNat_ofNat, Nat.mod_eq_of_lt hlt]

/-- Settles O53: each format's decoder reads fields that cover the word. -/
theorem encodeOfDecode : Obligations.EncodeOfDecode := by
  intro w i h
  obtain hK | hK | hK | hK := fieldK_cases w
  · rw [decodeWord_regRead hK] at h
    split_ifs at h with hZ
    exact encode_of_decodeRead hK hZ h
  · rw [decodeWord_regWrite hK] at h
    split_ifs at h with hZ
    exact encode_of_decodeWrite hK hZ h
  · rw [decodeWord_evt hK] at h
    split_ifs at h with hZ
    exact encode_of_decodeEvent hK hZ h
  · rw [decodeWord_adv hK] at h
    cases h
    refine ⟨encode_advance_fieldDelta hK, wellFormed_advance_iff.mpr ?_⟩
    rw [fieldDelta_eq]
    exact Nat.le_of_lt_succ (Nat.mod_lt _ (by decide))

/-! ## The opcode map (R79) -/

/-- A masked word matches a pattern where each of its fields does. -/
theorem and_mask_eq_iff {w mask p : Word} : w &&& mask = p ↔
    fieldK w &&& fieldK mask = fieldK p ∧ fieldZ w &&& fieldZ mask = fieldZ p ∧
      fieldA w &&& fieldA mask = fieldA p ∧ fieldD w &&& fieldD mask = fieldD p := by
  rw [word_eq_iff]
  simp only [fieldK, fieldZ, fieldA, fieldD, BitVec.extractLsb'_and]

/-! A mask that covers a field keeps it. -/

theorem and_mask_two (x : BitVec 2) : x &&& 3#2 = x := BitVec.and_allOnes
theorem and_mask_four (x : BitVec 4) : x &&& 15#4 = x := BitVec.and_allOnes
theorem and_mask_eight (x : BitVec 8) : x &&& 255#8 = x := BitVec.and_allOnes

/-- The word of an operation selects the operation's row alone. -/
theorem rows_selected_by_encode (i : Instr) :
    (opcodeMap.filter (·.selects (encode i))).map (·.mnemonic) = [i.mnemonic] := by
  cases i with
  | rdData | rdStatus | rdControl | init | close | firePulse | fireTimeout => rfl
  | wrData v | wrControl v =>
    simp [opcodeMap, OpRow.selects, and_mask_eq_iff, encode, HostReg.offset, Instr.mnemonic]
  | advance delta => simp [opcodeMap, OpRow.selects, and_mask_eq_iff, encode, Instr.mnemonic]

/-- A word that selects a row is legal. -/
theorem decodes_of_selects {w : Word} {r : OpRow} (hr : r ∈ opcodeMap) (h : r.selects w = true) :
    ∃ i, decodeWord w = .ok i := by
  have hfields := and_mask_eq_iff.mp (of_decide_eq_true h)
  simp only [opcodeMap, List.mem_cons, List.not_mem_nil, or_false] at hr
  obtain rfl | rfl | rfl | rfl | rfl | rfl | rfl | rfl | rfl | rfl := hr
  all_goals
    simp [and_mask_two, and_mask_four, and_mask_eight] at hfields
    simp [decodeWord, formatOf, decodeRead, decodeWrite, decodeEvent, HostReg.offset, hfields]

/-- Settles O54: a legal word is the word of its operation, which selects that row alone; a word that selects a row is
legal. -/
theorem decoderFollowsOpcodeMap : Obligations.DecoderFollowsOpcodeMap := by
  intro w
  cases hw : decodeWord w with
  | ok i =>
    obtain ⟨rfl, -⟩ := encodeOfDecode w i hw
    exact rows_selected_by_encode i
  | error reason =>
    have hnone : opcodeMap.filter (·.selects w) = [] := by
      refine List.filter_eq_nil_iff.mpr fun r hr hsel => ?_
      obtain ⟨i, hi⟩ := decodes_of_selects hr hsel
      cases hw.symm.trans hi
    rw [hnone, List.map_nil]

/-- Settles O55: `decodeWord_reserved_iff`, with each field as a number. -/
theorem reservedWordClasses : Obligations.ReservedWordClasses := by
  intro w
  rw [decodeWord_reserved_iff]
  simp only [ne_eq, ← BitVec.toNat_inj, toNat_fieldK, toNat_fieldZ, toNat_fieldA, toNat_fieldD]
  rfl

/-- Settles O51, by running the decoder. -/
theorem sampleWordsDecode : Obligations.SampleWordsDecode := by
  unfold Obligations.SampleWordsDecode
  decide

end Sys2Proof

/-! SUPPORT. The assembler and the expansions of its pseudo-instructions (30_encoding.md). -/

namespace Sys2Proof.Machine

/-! ## The assembler (R84) -/

/-- The assembler checks the range of every operation it gives. -/
theorem wellFormed_of_assembleLine {line : List Char} {is : List Instr} (h : assembleLine line = some is) {i : Instr}
    (hi : i ∈ is) : i.wellFormed = true := by
  unfold assembleLine at h
  split at h
  · cases h
    cases hi
  · split at h
    · cases h
    · obtain ⟨js, -, hjs⟩ := Option.bind_eq_some_iff.mp h
      split_ifs at hjs with hall
      cases hjs
      exact List.all_eq_true.mp hall i hi

/-- Settles O59: `wellFormed_of_assembleLine`, and then `decodeOfEncode`. -/
theorem assemblerSpellsLegalWords : Obligations.AssemblerSpellsLegalWords := by
  intro line is h i hi
  have hwf : i.wellFormed = true := wellFormed_of_assembleLine h hi
  exact ⟨hwf, decodeOfEncode i hwf⟩

/-! ## `adv.long` -/

section
variable {s : State} {m n : Nat}

theorem exec_advance_enabled (h : advanceEnabled s n = true) :
    exec (.advance n) s = .next ((s.addTime n).answer none) := by
  simp only [exec, execAdvance, if_pos h]

theorem exec_advance_stuck (h : advanceEnabled s n = false) : exec (.advance n) s = .fault .pastDeadline := by
  simp only [exec, execAdvance, h, Bool.false_eq_true, if_false]

/-- ADVANCE is enabled exactly up to the nearest armed deadline (R115). -/
theorem advanceEnabled_iff : advanceEnabled s n = true ↔ ∀ x ∈ s.dev.deadlines, s.now + n ≤ x := by
  simp [advanceEnabled]

/-- After m ticks another n are enabled where m + n were. -/
theorem advanceEnabled_addTime : advanceEnabled ((s.addTime m).answer none) n = advanceEnabled s (m + n) := by
  simp [advanceEnabled, Nat.add_assoc]

/-- What is enabled for m + n ticks is enabled for m. -/
theorem advanceEnabled_of_add (h : advanceEnabled s (m + n) = true) : advanceEnabled s m = true := by
  rw [advanceEnabled_iff] at h ⊢
  intro x hx
  have hle := h x hx
  omega

/-- An ADVANCE before operations that do what one ADVANCE does adds to it, stuck or not (R114, R115). -/
theorem execAll_advance_cons (is : List Instr) (h : ∀ t, execAll is t = exec (.advance n) t) :
    execAll (.advance m :: is) s = exec (.advance (m + n)) s := by
  cases hm : advanceEnabled s m with
  | true =>
    rw [execAll_cons (exec_advance_enabled hm), h]
    cases hn : advanceEnabled s (m + n) with
    | true =>
      rw [exec_advance_enabled hn, exec_advance_enabled (advanceEnabled_addTime.trans hn)]
      simp [State.addTime, State.answer, Nat.add_assoc]
    | false => rw [exec_advance_stuck hn, exec_advance_stuck (advanceEnabled_addTime.trans hn)]
  | false =>
    have hn : advanceEnabled s (m + n) = false :=
      Bool.eq_false_iff.mpr fun hn => Bool.eq_false_iff.mp hm (advanceEnabled_of_add hn)
    rw [exec_advance_stuck hn, execAll, exec_advance_stuck hm]

theorem execAll_singleton (i : Instr) (s : State) : execAll [i] s = exec i s := by
  cases h : exec i s <;> simp only [execAll, h]

/-- ADVANCEs one after the other do what one of their sum does. -/
theorem execAll_advances (k m n : Nat) (s : State) :
    execAll (List.replicate k (.advance m) ++ [.advance n]) s = exec (.advance (m * k + n)) s := by
  induction k generalizing s with
  | zero => simpa using execAll_singleton (.advance n) s
  | succ k ih =>
    rw [List.replicate_succ, List.cons_append, execAll_advance_cons _ ih]
    congr 2
    ring

/-- The expansion of `adv.long n` does what one ADVANCE of n ticks does (R85; log 15). -/
theorem execAll_advLong (n : Nat) (s : State) : execAll (advLong n) s = exec (.advance n) s := by
  rw [advLong, execAll_advances, Nat.div_add_mod]

theorem wellFormed_of_mem_advLong {i : Instr} (hi : i ∈ advLong n) : i.wellFormed = true := by
  obtain hrep | hlast := List.mem_append.mp hi
  · rw [List.eq_of_mem_replicate hrep]
    exact wellFormed_advance_iff.mpr le_rfl
  · rw [List.mem_singleton.mp hlast]
    exact wellFormed_advance_iff.mpr (Nat.mod_lt _ (by decide)).le

end

/-- Settles O58: the expansion does what one ADVANCE of n ticks does, as `execAll_advLong` says. -/
theorem advLongAdvances : Obligations.AdvLongAdvances := by
  intro s n
  rw [execAll_advLong]
  exact ⟨fun h => ⟨_, exec_advance_enabled h, rfl⟩, exec_advance_stuck, fun _ => wellFormed_of_mem_advLong⟩

/-! ## `reset` and `ack` -/

section
variable {s : State} {d : DeviceState} {v : Byte}

/-- A write with a RESET edge and no STROBE edge resets the handshake, and keeps the buffer and the file (R98, R102). -/
theorem exec_wrControl_reset (hd : s.dev = .present d) (hs : strobeEdge d.control v = false)
    (hr : resetEdge d.control v = true) :
    exec (.wrControl v) s = .next { s with
      dev := .present { d with autofeed := bit v 1, selected := false, ackPending := false, pulseDeadline := none,
                               timeoutDeadline := none, control := v },
      ret := none } := by
  rw [exec_wrControl_some hd (writeControl_no_strobe d s hs), controlLevels_reset d hr]
  rfl

/-- The pulse fire that ends a pending ACK (R119). -/
theorem exec_firePulse_pending (hd : s.dev = .present d) (hp : d.pulseDeadline = some s.now) (hack : d.ackPending = true) :
    exec .firePulse s = .next { s with
      dev := .present { d with ackPending := false, pulseDeadline := none }, out := s.out ++ [.irq], ret := none } := by
  rw [exec_firePulse_due hd hp, pulseCallback, if_pos hack]
  rfl

/-- The first byte of a `reset` has bits 0 and 2 low, and the second has bit 2 high (R85). -/
theorem resetPulse_bits (c : Byte) :
    bit (c &&& 0xFA#8) 0 = false ∧ bit (c &&& 0xFA#8) 2 = false ∧ bit ((c ||| 0x04#8) &&& 0xFE#8) 2 = true := by
  simp [bit]

/-- The two writes of a `reset` make a RESET edge and no STROBE edge where bit 0 was low before (R171). -/
theorem execAll_resetPulse (c : Byte) (hd : s.dev = .present d) (hlow : bit d.control 0 = false) :
    execAll (resetPulse c) s = .next { s with
      dev := .present { d with
        autofeed := bit ((c ||| 0x04#8) &&& 0xFE#8) 1, selected := false, ackPending := false, pulseDeadline := none,
        timeoutDeadline := none, control := (c ||| 0x04#8) &&& 0xFE#8 },
      ret := none } := by
  obtain ⟨hlow₁, hdown, hup⟩ := resetPulse_bits c
  have hfirst := exec_wrControl_no_edge (v := c &&& 0xFA#8) hd (strobeEdge_false (by simp [hlow]))
    (resetEdge_false (by simp [hdown]))
  rw [resetPulse, execAll_cons hfirst, execAll_singleton,
    exec_wrControl_reset rfl (strobeEdge_false (by simp [hlow₁])) (resetEdge_true hup hdown)]

end

/-- Settles O57: `execAll_resetPulse`; and an ADVANCE that stops in the instant of the pulse, which then fires. -/
theorem resetAndAckExpansions : Obligations.ResetAndAckExpansions := by
  refine ⟨fun s d c hd hlow =>
    ⟨_, _, execAll_resetPulse c hd hlow, rfl, rfl, rfl, rfl, rfl, rfl, rfl, rfl, rfl, rfl⟩, fun s d hd hack hpulse htimeout => ?_⟩
  have henabled : advanceEnabled s Config.pulseDelay = true := by
    simpa [advanceEnabled_iff, hd, hpulse] using htimeout
  have hfire := exec_firePulse_pending (s := (s.addTime Config.pulseDelay).answer none) hd hpulse hack
  exact ⟨_, (execAll_cons (exec_advance_enabled henabled) _).trans (execAll_cons hfire []), rfl, rfl, rfl⟩

/-! ## `send` -/

section
variable {s : State} {d : DeviceState} {v : Byte}

/-- A STROBE edge that does not fill the buffer: the latch appended, the ACK started, and nothing outside the device
touched (R99, R101). -/
theorem exec_wrControl_accepts (hd : s.dev = .present d) (hs : strobeEdge d.control v = true)
    (hlt : d.cursor.val + 1 < Config.capacity) :
    ∃ full, bufAppend d.dataLatch d = some full ∧ exec (.wrControl v) s = .next { s with
      dev := .present { full with
        control := v, autofeed := bit v 1, selected := selectedByWrite v d, ackPending := true,
        pulseDeadline := some (s.now + Config.pulseDelay), timeoutDeadline := some (s.now + Config.timeoutDelay) },
      ret := none } := by
  cases hr : writeControl v d s with
  | none =>
    obtain ⟨-, hfull⟩ := (writeControl_none d s).mp hr
    omega
  | some r =>
    obtain ⟨full, hfull, rfl⟩ := writeControl_strobe_eq hs hr
    obtain ⟨-, hcursor, -⟩ := bufAppend_some hfull
    have hst : storeByte full s = (full, s) := if_neg (by omega)
    refine ⟨full, hfull, ?_⟩
    rw [exec_wrControl_some hd hr, hst]
    rfl

/-- A `send` before its last write: the byte latched, bit 0 raised, nothing stored, and nothing outside the device touched
(R85). -/
theorem execAll_send_raised (b c : Byte) (hd : s.dev = .present d) :
    ∃ d₁, execAll (send b c) s =
        exec (.wrControl (c &&& 0xFE#8)) { s with dev := .present d₁, ret := none } ∧
      d₁.dataLatch = b ∧ bit d₁.control 0 = true ∧ d₁.buf = d.buf ∧ d₁.cursor = d.cursor := by
  have hhigh : bit (c ||| 0x01#8) 0 = true := strobe_raises c
  have hs : strobeEdge (d.latch b).control (c ||| 0x01#8) = false := strobeEdge_false fun _ => hhigh
  have hraise := exec_wrControl_some (s := (rejoin (d.latch b, s)).answer none) rfl (writeControl_no_strobe _ _ hs)
  obtain ⟨hlatch, -, hbuf, hcursor, -⟩ := controlLevels_data (d.latch b) (c ||| 0x01#8)
  refine ⟨(controlLevels (c ||| 0x01#8) (d.latch b)).setControl (c ||| 0x01#8), ?_, hlatch, hhigh, hbuf, hcursor⟩
  rw [send, strobe, execAll_cons (exec_wrData_present hd b), execAll_cons hraise, execAll_singleton]
  rfl

end

/-- Settles O56: the STROBE edge of the last write appends the latch, which is b by then. -/
theorem sendAcceptsByte : Obligations.SendAcceptsByte := by
  intro s d b c hd hwf hlt
  obtain ⟨d₁, hrun, rfl, hhigh, hbuf, hcursor⟩ := execAll_send_raised b c hd
  obtain ⟨full, hfull, hx⟩ := exec_wrControl_accepts (d := d₁) (s := { s with dev := .present d₁, ret := none }) rfl
    (strobeEdge_true (strobe_lowers c) hhigh) (hcursor ▸ hlt)
  obtain ⟨-, hfullCursor, -⟩ := bufAppend_some hfull
  have hbytes : bufferedBytes full = bufferedBytes d ++ [d₁.dataLatch] := by
    rw [bufferedBytes_bufAppend (hbuf ▸ hwf) hfull, bufferedBytes_congr hbuf hcursor]
  exact ⟨_, _, hrun.trans hx, rfl, hfullCursor.trans (by rw [hcursor]), hbytes, rfl, rfl, rfl, rfl, rfl, rfl⟩

end Sys2Proof.Machine

/-! SUPPORT. The host's view through an operation, and what a CONTROL write makes of the device (40_register_ops.md). -/

namespace Sys2Proof.Machine

/-! ## The operations on an Absent device and on a timer that is not due -/

section
variable {s : State} {d : DeviceState}

theorem exec_rdData (s : State) : exec .rdData s = .next (s.answer (some s.draws.rdVal)) := rfl
theorem exec_rdControl (s : State) : exec .rdControl s = .next (s.answer (some s.draws.rdVal)) := rfl

theorem exec_rdStatus_absent (hd : s.dev = .absent) : exec .rdStatus s = .next (s.answer (some s.draws.rdVal)) := by
  simp only [exec, execRdStatus, hd, unsuppliedRead]

theorem exec_wrData_absent (hd : s.dev = .absent) (v : Byte) : exec (.wrData v) s = .next (s.answer none) := by
  simp only [exec, execWrData, hd]

theorem exec_init_absent (hd : s.dev = .absent) : exec .init s =
    .next (State.answer (if s.draws.allocOk then s.setDevice (.present initialDevice) else s) none) := by
  simp only [exec, execInit, hd]

theorem exec_close_absent (hd : s.dev = .absent) : exec .close s = .next (s.answer none) := by
  simp only [exec, execClose, hd]

theorem exec_firePulse_absent (hd : s.dev = .absent) : exec .firePulse s = .fault .pulseNotDue := by
  simp only [exec, execFirePulse, hd]

theorem exec_fireTimeout_absent (hd : s.dev = .absent) : exec .fireTimeout s = .fault .timeoutNotDue := by
  simp only [exec, execFireTimeout, hd]

theorem exec_firePulse_not_due (hd : s.dev = .present d) (hp : d.pulseDeadline ≠ some s.now) :
    exec .firePulse s = .fault .pulseNotDue := by
  simp only [exec, execFirePulse, hd, if_neg hp]

theorem exec_fireTimeout_not_due (hd : s.dev = .present d) (ht : d.timeoutDeadline ≠ some s.now) :
    exec .fireTimeout s = .fault .timeoutNotDue := by
  simp only [exec, execFireTimeout, hd, if_neg ht]

end

/-! ## The host's view (R37) -/

section
variable {d e : DeviceState} {s t : State} {v : Byte} {r q : DeviceState × State}

theorem hostView_eq_iff : hostView s = hostView t ↔ s.dev.handshake = t.dev.handshake ∧ s.now = t.now ∧
    s.ret = t.ret ∧ irqCount s.out = irqCount t.out ∧ s.refused = t.refused := by
  simp only [hostView, HostView.mk.injEq]

@[simp] theorem handshake_absent : Device.absent.handshake = none := rfl

theorem handshake_present_eq_iff : (Device.present d).handshake = (Device.present e).handshake ↔
    d.dataLatch = e.dataLatch ∧ d.control = e.control ∧ d.autofeed = e.autofeed ∧ d.selected = e.selected ∧
      d.ackPending = e.ackPending ∧ d.pulseDeadline = e.pulseDeadline ∧ d.timeoutDeadline = e.timeoutDeadline := by
  simp only [Device.handshake, Option.some.injEq, Handshake.mk.injEq]

/-- Devices that look alike to the host are both Absent, or both Present. -/
theorem device_cases_of_handshake_eq (h : s.dev.handshake = t.dev.handshake) :
    (s.dev = .absent ∧ t.dev = .absent) ∨
    (∃ d e, s.dev = .present d ∧ t.dev = .present e ∧ (Device.present d).handshake = (Device.present e).handshake) := by
  cases hs : s.dev with
  | absent =>
    cases ht : t.dev with
    | absent => exact .inl ⟨rfl, rfl⟩
    | present e => rw [hs, ht] at h; cases h
  | present d =>
    cases ht : t.dev with
    | absent => rw [hs, ht] at h; cases h
    | present e => exact .inr ⟨d, e, rfl, rfl, by rw [← hs, ← ht, h]⟩

/-- The armed deadlines are part of the view. -/
theorem deadlines_eq_of_handshake_eq (h : s.dev.handshake = t.dev.handshake) : s.dev.deadlines = t.dev.deadlines := by
  obtain ⟨hs, ht⟩ | ⟨d, e, hs, ht, hde⟩ := device_cases_of_handshake_eq h
  · rw [hs, ht]
  · obtain ⟨-, -, -, -, -, hpulse, htimeout⟩ := handshake_present_eq_iff.mp hde
    rw [hs, ht, deadlines_present, deadlines_present, hpulse, htimeout]

/-! What the updates of a state make of its view. -/

@[simp] theorem hostView_answer (s : State) (x : Option Byte) :
    hostView (s.answer x) = { hostView s with ret := x } := rfl
@[simp] theorem hostView_mark (s : State) : hostView s.mark = { hostView s with refused := true } := rfl
@[simp] theorem hostView_addTime (s : State) (delta : Nat) :
    hostView (s.addTime delta) = { hostView s with now := s.now + delta } := rfl
@[simp] theorem hostView_setDevice (s : State) (x : Device) :
    hostView (s.setDevice x) = { hostView s with handshake := x.handshake } := rfl
@[simp] theorem hostView_rejoin (r : DeviceState × State) :
    hostView (rejoin r) = { hostView r.2 with handshake := (Device.present r.1).handshake } := rfl
@[simp] theorem hostView_emit_irq (s : State) :
    hostView (s.emit .irq) = { hostView s with irqs := irqCount s.out + 1 } := by
  simp [hostView]

/-! The data path is not in it: a flush and the end of a job leave the view alone (R108). -/

@[simp] theorem hostView_flush (d : DeviceState) (s : State) : hostView (flush d s).2 = hostView s := by
  simp [hostView]

@[simp] theorem hostView_endJob (d : DeviceState) (s : State) : hostView (endJob d s).2 = hostView s := by
  simp [hostView]

@[simp] theorem hostView_storeByte (d : DeviceState) (s : State) : hostView (storeByte d s).2 = hostView s := by
  obtain ⟨-, h⟩ | ⟨-, h⟩ := storeByte_cases d s <;> rw [h]
  exact hostView_flush d s

theorem hostView_writeControl (hr : writeControl v d s = some r) : hostView r.2 = hostView s := by
  cases hs : strobeEdge d.control v with
  | false =>
    rw [writeControl_no_strobe d s hs] at hr
    cases hr
    rfl
  | true =>
    obtain ⟨full, -, rfl⟩ := writeControl_strobe_eq hs hr
    exact hostView_storeByte full s

/-- The pulse fire disarms its timer and leaves no ACK pending (R119). -/
theorem pulseCallback_device (d : DeviceState) (s : State) :
    (pulseCallback d s).1 = { d with ackPending := false, pulseDeadline := none } := by
  obtain ⟨-, h⟩ | ⟨hack, h⟩ := pulseCallback_cases d s <;> rw [h]
  rw [← hack]

/-- The pulse fire interrupts the host where an ACK was pending (R119, R148). -/
theorem hostView_pulseCallback (d : DeviceState) (s : State) : hostView (pulseCallback d s).2 =
    { hostView s with irqs := irqCount s.out + if d.ackPending then 1 else 0 } := by
  obtain ⟨hack, h⟩ | ⟨hack, h⟩ := pulseCallback_cases d s <;> rw [h, hack]
  · exact hostView_emit_irq s
  · rfl

/-! ## Devices that look alike stay alike -/

/-- A CONTROL write reads nothing but the handshake and the clock for what it makes of the handshake: at a STROBE edge the
latch enters the buffer, and the ACK starts whatever becomes of it (R101, R108). -/
theorem writeControl_handshake_congr (hde : (Device.present d).handshake = (Device.present e).handshake)
    (hnow : s.now = t.now) (hr : writeControl v d s = some r) (hq : writeControl v e t = some q) :
    (Device.present r.1).handshake = (Device.present q.1).handshake := by
  rw [handshake_present_eq_iff] at hde ⊢
  obtain ⟨hlatch, hcontrol, -, hselected, hack, hpulse, htimeout⟩ := hde
  cases hs : strobeEdge d.control v with
  | false =>
    rw [writeControl_no_strobe d s hs] at hr
    rw [writeControl_no_strobe e t (hcontrol ▸ hs)] at hq
    cases hr
    cases hq
    cases hreset : resetEdge d.control v with
    | false =>
      rw [controlLevels_no_reset d hreset, controlLevels_no_reset e (hcontrol ▸ hreset)]
      simp [hlatch, hselected, hack, hpulse, htimeout]
    | true =>
      rw [controlLevels_reset d hreset, controlLevels_reset e (hcontrol ▸ hreset)]
      simp [hlatch]
  | true =>
    obtain ⟨full, hfull, rfl⟩ := writeControl_strobe_eq hs hr
    obtain ⟨full', hfull', rfl⟩ := writeControl_strobe_eq (hcontrol ▸ hs) hq
    obtain ⟨-, -, -, hframe⟩ := bufAppend_some hfull
    obtain ⟨-, -, -, hframe'⟩ := bufAppend_some hfull'
    have hstored : (storeByte full s).1.dataLatch = (storeByte full' t).1.dataLatch := by
      rw [storeByte_device, storeByte_device full', hframe, hframe']
      exact hlatch
    simp [hstored, hnow, selectedByWrite, hcontrol, hselected]

/-- A free slot is all a CONTROL write needs (R47). -/
theorem writeControl_of_room (h : d.cursor.val < Config.capacity) (v : Byte) (s : State) :
    ∃ r, writeControl v d s = some r := by
  refine Option.ne_none_iff_exists'.mp fun hnone => ?_
  obtain ⟨-, hcap⟩ := (writeControl_none d s).mp hnone
  omega

/-! ## Every operation ends alike (R108, R173) -/

@[simp] theorem sameForHost_next : sameForHost (.next s) (.next t) ↔ hostView s = hostView t := Iff.rfl
@[simp] theorem sameForHost_fault (f : Fault) : sameForHost (.fault f) (.fault f) := rfl

/-- ADVANCE reads the clock and the deadlines alone. -/
theorem exec_advance_sameForHost (delta : Nat) (hview : hostView s = hostView t) :
    sameForHost (exec (.advance delta) s) (exec (.advance delta) t) := by
  obtain ⟨hdev, hnow, -⟩ := hostView_eq_iff.mp hview
  have henabled : advanceEnabled s delta = advanceEnabled t delta := by
    simp only [advanceEnabled, deadlines_eq_of_handshake_eq hdev, hnow]
  cases ht : advanceEnabled t delta with
  | true =>
    rw [exec_advance_enabled (henabled.trans ht), exec_advance_enabled ht]
    simp [hview, hnow]
  | false =>
    rw [exec_advance_stuck (henabled.trans ht), exec_advance_stuck ht]
    exact sameForHost_fault _

/-- With no device there is no data path: an operation answers, creates the device or stops. -/
theorem exec_absent_sameForHost (i : Instr) (hs : s.dev = .absent) (ht : t.dev = .absent)
    (hview : hostView s = hostView t) (halloc : s.draws.allocOk = t.draws.allocOk)
    (hread : s.draws.rdVal = t.draws.rdVal) : sameForHost (exec i s) (exec i t) := by
  cases i with
  | rdData | rdControl => simp [exec_rdData, exec_rdControl, hview, hread]
  | rdStatus => simp [exec_rdStatus_absent hs, exec_rdStatus_absent ht, hview, hread]
  | wrData v => simp [exec_wrData_absent hs, exec_wrData_absent ht, hview]
  | wrControl v => simp [exec_wrControl_absent hs, exec_wrControl_absent ht, hview]
  | init =>
    rw [exec_init_absent hs, exec_init_absent ht, halloc]
    cases t.draws.allocOk <;> simp [hview]
  | close => simp [exec_close_absent hs, exec_close_absent ht, hview]
  | firePulse => simp [exec_firePulse_absent hs, exec_firePulse_absent ht]
  | fireTimeout => simp [exec_fireTimeout_absent hs, exec_fireTimeout_absent ht]
  | advance delta => exact exec_advance_sameForHost delta hview

end

/-! On Present devices that look alike. -/

section
variable {d e : DeviceState} {s t : State} (hs : s.dev = .present d) (ht : t.dev = .present e)
  (hview : hostView s = hostView t) (hde : (Device.present d).handshake = (Device.present e).handshake)

include hs ht hview hde

/-- The pulse fire reads the clock, its deadline and the ACK. -/
theorem exec_firePulse_sameForHost :
    sameForHost (exec .firePulse s) (exec .firePulse t) := by
  obtain ⟨-, hnow, -, hirqs, -⟩ := hostView_eq_iff.mp hview
  obtain ⟨hlatch, hcontrol, hauto, hselected, hack, hpulse, htimeout⟩ := handshake_present_eq_iff.mp hde
  by_cases hdue : d.pulseDeadline = some s.now
  · rw [exec_firePulse_due hs hdue, exec_firePulse_due ht (by rw [← hpulse, ← hnow, hdue])]
    have hafter : (Device.present (pulseCallback d s).1).handshake = (Device.present (pulseCallback e t).1).handshake := by
      rw [handshake_present_eq_iff, pulseCallback_device, pulseCallback_device]
      exact ⟨hlatch, hcontrol, hauto, hselected, rfl, rfl, htimeout⟩
    simp [hostView_pulseCallback, hafter, hview, hirqs, hack]
  · rw [exec_firePulse_not_due hs hdue, exec_firePulse_not_due ht (by rw [← hpulse, ← hnow]; exact hdue)]
    exact sameForHost_fault _

/-- The timeout fire reads the clock and its deadline alone. -/
theorem exec_fireTimeout_sameForHost :
    sameForHost (exec .fireTimeout s) (exec .fireTimeout t) := by
  obtain ⟨-, hnow, -⟩ := hostView_eq_iff.mp hview
  obtain ⟨hlatch, hcontrol, hauto, hselected, hack, hpulse, htimeout⟩ := handshake_present_eq_iff.mp hde
  by_cases hdue : d.timeoutDeadline = some s.now
  · rw [exec_fireTimeout_due hs hdue, exec_fireTimeout_due ht (by rw [← htimeout, ← hnow, hdue])]
    have hafter : (Device.present (timeoutCallback d s).1).handshake = (Device.present (timeoutCallback e t).1).handshake := by
      rw [handshake_present_eq_iff, timeoutCallback_device, timeoutCallback_device]
      exact ⟨hlatch, hcontrol, hauto, hselected, hack, hpulse, rfl⟩
    simp [timeoutCallback_state, hafter, hview]
  · rw [exec_fireTimeout_not_due hs hdue, exec_fireTimeout_not_due ht (by rw [← htimeout, ← hnow]; exact hdue)]
    exact sameForHost_fault _

/-- What the host sees of an operation on a Present device depends on the handshake, given a free slot in the buffer. -/
theorem exec_present_sameForHost (i : Instr) (hread : s.draws.rdVal = t.draws.rdVal)
    (hd : d.cursor.val < Config.capacity) (he : e.cursor.val < Config.capacity) :
    sameForHost (exec i s) (exec i t) := by
  obtain ⟨-, hnow, -⟩ := hostView_eq_iff.mp hview
  cases i with
  | rdData | rdControl => simp [exec_rdData, exec_rdControl, hview, hread]
  | rdStatus =>
    obtain ⟨-, -, -, -, hack, -⟩ := handshake_present_eq_iff.mp hde
    simp [exec_rdStatus_present hs, exec_rdStatus_present ht, statusValue, hview, hack]
  | wrData v =>
    obtain ⟨-, hrest⟩ := handshake_present_eq_iff.mp hde
    have hafter : (Device.present (d.latch v)).handshake = (Device.present (e.latch v)).handshake :=
      handshake_present_eq_iff.mpr ⟨rfl, hrest⟩
    simp [exec_wrData_present hs, exec_wrData_present ht, hafter, hview]
  | wrControl v =>
    obtain ⟨r, hr⟩ := writeControl_of_room hd v s
    obtain ⟨q, hq⟩ := writeControl_of_room he v t
    have hafter := writeControl_handshake_congr hde hnow hr hq
    simp [exec_wrControl_some hs hr, exec_wrControl_some ht hq, hostView_writeControl hr, hostView_writeControl hq,
      hafter, hview]
  | init => simp [exec_init_present hs, exec_init_present ht, hview]
  | close => simp [exec_close_present hs, exec_close_present ht, teardown_state, hview]
  | firePulse => exact exec_firePulse_sameForHost hs ht hview hde
  | fireTimeout => exact exec_fireTimeout_sameForHost hs ht hview hde
  | advance delta => exact exec_advance_sameForHost delta hview

end

/-- Settles O45: equal views show two Absent devices or two Present ones with one handshake, and `exec_absent_sameForHost` and
`exec_present_sameForHost` say that either pair stays alike. -/
theorem hostCannotSeeDataPath : Obligations.HostCannotSeeDataPath := by
  intro i s t hs ht hview halloc hread
  obtain ⟨hdev, -⟩ := hostView_eq_iff.mp hview
  obtain ⟨hsd, htd⟩ | ⟨d, e, hsd, htd, hde⟩ := device_cases_of_handshake_eq hdev
  · exact exec_absent_sameForHost i hsd htd hview halloc hread
  · exact exec_present_sameForHost hsd htd hview hde i hread (hs d hsd) (ht e htd)

/-! ## The CONTROL write in its bits (R89 to R101) -/

section
variable {s t : State} {d : DeviceState} {v v' : Byte} {r : DeviceState × State}

theorem writeControl_selected (hr : writeControl v d s = some r) : r.1.selected = selectedByWrite v d := by
  cases hs : strobeEdge d.control v with
  | false =>
    obtain ⟨_, _, _, hlevels⟩ := controlLevels_eq d v
    rw [writeControl_no_strobe d s hs, hlevels] at hr
    cases hr
    rfl
  | true =>
    obtain ⟨_, -, rfl⟩ := writeControl_strobe_eq hs hr
    rfl

/-- The sub-steps before the store read bits 0 to 3 of the written byte alone (R94). -/
theorem writeControl_of_low_bits (h : ∀ i, i < 4 → bit v i = bit v' i) (hr : writeControl v d s = some r) :
    writeControl v' d s = some (r.1.setControl v', r.2) := by
  have hstrobe : strobeEdge d.control v' = strobeEdge d.control v := by simp [strobeEdge, h]
  have hlevels : controlLevels v' d = controlLevels v d := by
    simp [controlLevels, resetStep, resetEdge, autofeedAfter, selectedAfter, h]
  obtain ⟨hs, rfl⟩ | ⟨hs, a, ha, rfl⟩ := writeControl_some d s hr
  · rw [writeControl_no_strobe d s (hstrobe.trans hs), hlevels]
    rfl
  · rw [writeControl_strobe d s (hstrobe.trans hs), hlevels, ha]
    rfl

/-- A STROBE edge accepts the same byte whatever `control` held and whatever else the write does; the flags and the store
stand beside it (R97, R101). -/
theorem writeControl_of_accept {a : DeviceState × State} {c : Byte} (x : Device) (ha : acceptByte d s = some a)
    (hs : strobeEdge c v = true) : writeControl v { d with control := c } { s with dev := x } =
      some ({ a.1 with control := v, autofeed := bit v 1, selected := selectedByWrite v { d with control := c } },
        { a.2 with dev := x }) := by
  obtain ⟨ack, pulse, timeout, hlevels⟩ := controlLevels_eq { d with control := c } v
  have haccept := acceptByte_congr d s c (bit v 1) (selectedByWrite v { d with control := c }) ack pulse timeout x
  rw [writeControl_strobe _ _ hs, hlevels, haccept, ha]
  rfl

/-- Setting bit 2 of a byte leaves bit 0 alone. -/
theorem bit_zero_or_four (c : Byte) : bit (c ||| 0x04#8) 0 = bit c 0 := by simp [bit]

end

/-- Settles O11: the flags are those of `writeControl_stores` and `writeControl_selected`. -/
theorem controlWriteFlags : Obligations.ControlWriteFlags := by
  intro s t d d' v hd hx hd'
  obtain ⟨r, hr, rfl⟩ := exec_wrControl_next hx hd
  obtain ⟨hcontrol, hauto⟩ := writeControl_stores hr
  cases hd'
  exact ⟨hcontrol, hauto, writeControl_selected hr⟩

/-- Settles O12: this is `writeControl_of_low_bits`. -/
theorem upperControlBitsOnlyStored : Obligations.UpperControlBitsOnlyStored := by
  intro s t d d' v v' hd hbits hx hd'
  obtain ⟨r, hr, rfl⟩ := exec_wrControl_next hx hd
  cases hd'
  exact exec_wrControl_some hd (writeControl_of_low_bits hbits hr)

/-- Settles O14: the byte appended is `exec_wrControl_accepts`, and without a RESET edge `selected` follows bit 3. -/
theorem strobeAcceptsLatchedByte : Obligations.StrobeAcceptsLatchedByte := by
  intro s d v hd hwf hv hold hreset hlt
  have hselected : selectedByWrite v d = selectedAfter v d.selected := by
    simp [selectedByWrite, resetEdge_false hreset]
  obtain ⟨full, hfull, hx⟩ := exec_wrControl_accepts hd (strobeEdge_true hv hold) hlt
  obtain ⟨-, hcursor, hbuf, hframe⟩ := bufAppend_some hfull
  refine ⟨_, hx, hcursor, fun a => ?_, ?_⟩
  · rw [hbuf, Memory.read_write hwf.1]
  · rw [hselected, hframe]
    rfl

/-- Settles O15: by `writeControl_of_accept` both writes end in the device and the state that AcceptByte leaves, and bit 2
of the byte before them decides `selected` alone. -/
theorem resetAndStrobeInOneWrite : Obligations.ResetAndStrobeInOneWrite := by
  intro s d v hd hv₂ hold₂ hv₀ hold₀ hroom
  obtain ⟨a, ha⟩ : ∃ a, acceptByte d s = some a :=
    Option.ne_none_iff_exists'.mp fun hnone => hroom.ne ((acceptByte_none d s).mp hnone)
  have hplain := writeControl_of_accept (c := d.control ||| 0x04#8) (.present { d with control := d.control ||| 0x04#8 })
    ha (strobeEdge_true hv₀ (by rw [bit_zero_or_four, hold₀]))
  have hboth := writeControl_of_accept s.dev ha (strobeEdge_true hv₀ hold₀)
  have hcleared : selectedByWrite v d = false := if_pos (resetEdge_true hv₂ hold₂)
  refine ⟨_, _, exec_wrControl_some rfl hplain, rfl, ?_⟩
  rw [exec_wrControl_some hd hboth, hcleared]
  rfl

/-- Settles O6: the latch is the one field that WR_DATA writes. -/
theorem writeDataOnlyLatches : Obligations.WriteDataOnlyLatches :=
  fun _ _ v hd => exec_wrData_present hd v

/-- Settles O7: RD_STATUS answers `statusValue`; the other two answer the draw, Present or Absent. -/
theorem readsOnPresentDevice : Obligations.ReadsOnPresentDevice :=
  fun s _ hd => ⟨exec_rdStatus_present hd, exec_rdData s, exec_rdControl s⟩

/-- Settles O10: this is `exec_wrControl_no_edge`. -/
theorem controlWriteWithoutEdge : Obligations.ControlWriteWithoutEdge :=
  fun _ _ _ hd hreset hstrobe => exec_wrControl_no_edge hd (strobeEdge_false hstrobe) (resetEdge_false hreset)

end Sys2Proof.Machine

/-! SUPPORT. The clock and the timer fires: each operation that moves time or ends a job in its fields, the order of the two
fires, and what they leave alone (41_timers_and_clock.md). -/

namespace Sys2Proof.Machine

/-! ## ADVANCE and the armed deadlines (R114, R115) -/

section
variable {s : State} {n x : Nat}

theorem mem_deadlines_iff : x ∈ s.dev.deadlines ↔
    ∃ d, s.dev = .present d ∧ (d.pulseDeadline = some x ∨ d.timeoutDeadline = some x) := by
  cases s.dev <;> simp

/-- An ADVANCE past an armed deadline is stuck. -/
theorem exec_advance_past_deadline (hx : x ∈ s.dev.deadlines) (hlt : x < s.now + n) :
    exec (.advance n) s = .fault .pastDeadline := by
  refine exec_advance_stuck (Bool.eq_false_iff.mpr fun henabled => ?_)
  have hle := advanceEnabled_iff.mp henabled x hx
  omega

end

/-! ## The fires and CLOSE in their fields (R119, R120, R130) -/

section
variable {s : State} {d : DeviceState}

/-- Of the rest of the state the pulse fire touches the output trace alone, by one `Irq` where an ACK was pending. -/
theorem pulseCallback_state (d : DeviceState) (s : State) :
    (pulseCallback d s).2 = { s with out := if d.ackPending then s.out ++ [.irq] else s.out } := by
  obtain ⟨hack, h⟩ | ⟨hack, h⟩ := pulseCallback_cases d s <;> rw [h, hack] <;> rfl

theorem exec_firePulse_eq (hd : s.dev = .present d) (hp : d.pulseDeadline = some s.now) :
    exec .firePulse s = .next { s with
      dev := .present { d with ackPending := false, pulseDeadline := none },
      out := if d.ackPending then s.out ++ [.irq] else s.out,
      ret := none } := by
  rw [exec_firePulse_due hd hp, rejoin, pulseCallback_device, pulseCallback_state]
  rfl

theorem exec_fireTimeout_eq (hd : s.dev = .present d) (ht : d.timeoutDeadline = some s.now) :
    exec .fireTimeout s = .next { s with
      dev := .present { d with cursor := 0, outputFile := none, timeoutDeadline := none },
      fs := (endJob d s).2.fs, out := (endJob d s).2.out, ret := none } := by
  rw [exec_fireTimeout_due hd ht, rejoin, timeoutCallback_device, timeoutCallback_state, endJob_state]
  rfl

theorem exec_close_eq (hd : s.dev = .present d) :
    exec .close s = .next { s with
      dev := .absent, fs := (endJob d s).2.fs, out := (endJob d s).2.out, ret := none } := by
  rw [exec_close_present hd, teardown_state, endJob_state]
  rfl

/-- The end of a job changes no file but the one its flush writes to (R61). -/
theorem endJob_other_files (hfs : FileSystem.wf s.fs) {m : FileName} (hm : m ≠ sinkName d s) :
    FileSystem.content (endJob d s).2.fs m = FileSystem.content s.fs m := by
  rw [endJob_fs]
  exact flush_other_files hfs hm

end

/-! ## The end of a job reads the data path alone (R122) -/

section
variable {d e : DeviceState} {s u : State} (hbytes : bufferedBytes e = bufferedBytes d)
  (hfile : e.outputFile = d.outputFile) (hfs : u.fs = s.fs) (hdraws : u.draws = s.draws)

include hbytes hfile hfs hdraws

/-- Two flushes of the same bytes to the same file, over the same files and under the same draws, emit the same events, write
the same files and leave the same file open. -/
theorem flush_same_data : (flush e u).2.fs = (flush d s).2.fs ∧
    (flush e u).1.outputFile = (flush d s).1.outputFile ∧
    ∃ es, (flush d s).2.out = s.out ++ es ∧ (flush e u).2.out = u.out ++ es := by
  have hcursor : e.cursor.val = d.cursor.val := by simpa using congrArg List.length hbytes
  obtain ⟨hc, h⟩ | ⟨n, hc, hf, h⟩ | ⟨hc, hf, ho, h⟩ | ⟨hc, hf, ho, h⟩ := flush_cases d s <;> rw [h]
  · rw [flush_of_empty (hcursor.trans hc)]
    exact ⟨hfs, hfile, [], by simp⟩
  · rw [flush_of_open (hcursor ▸ hc) (hfile.trans hf)]
    simp [writeSink, hbytes, hfile, hfs]
  · rw [flush_of_openOk (hcursor ▸ hc) (hfile.trans hf) (hdraws ▸ ho)]
    simp [writeSink, openSink, hbytes, hfs, hdraws]
  · rw [flush_of_openFailed (hcursor ▸ hc) (hfile.trans hf) (hdraws ▸ ho)]
    simp [dropBuffered, hfile, hfs]

/-- So do two ends of a job. -/
theorem endJob_same_data : (endJob e u).2.fs = (endJob d s).2.fs ∧
    ∃ es, (endJob d s).2.out = s.out ++ es ∧ (endJob e u).2.out = u.out ++ es := by
  obtain ⟨hfs', hfile', es, hd, he⟩ := flush_same_data hbytes hfile hfs hdraws
  refine ⟨by rw [endJob_fs, endJob_fs, hfs'],
    es ++ ((flush d s).1.outputFile.map OutEvent.sinkClose).toList, ?_, ?_⟩
  · rw [endJob_out, hd, List.append_assoc]
  · rw [endJob_out, he, hfile', List.append_assoc]

end

/-! ## A strobe that leaves the buffer room (R101, R121) -/

/-- The latch joins the bytes buffered and the file open, nothing is emitted, and the timeout is armed from now. -/
theorem exec_wrControl_joins_job {s : State} {d : DeviceState} {v : Byte} (hd : s.dev = .present d)
    (hwf : Memory.wf d.buf) (hv : bit v 0 = false) (hold : bit d.control 0 = true)
    (hlt : d.cursor.val + 1 < Config.capacity) :
    ∃ t d', exec (.wrControl v) s = .next t ∧ t.dev = .present d' ∧ t.out = s.out ∧ t.now = s.now ∧
      bufferedBytes d' = bufferedBytes d ++ [d.dataLatch] ∧ d'.outputFile = d.outputFile ∧
      d'.timeoutDeadline = some (s.now + Config.timeoutDelay) := by
  obtain ⟨full, hfull, hx⟩ := exec_wrControl_accepts hd (strobeEdge_true hv hold) hlt
  obtain ⟨-, -, -, hframe⟩ := bufAppend_some hfull
  have hbytes := bufferedBytes_bufAppend hwf hfull
  exact ⟨_, _, hx, rfl, rfl, rfl, hbytes, by rw [hframe], rfl⟩

/-! ## The clock (R110) -/

/-- The virtual time an operation takes. -/
def elapsed : Instr → Nat
  | .advance delta => delta
  | _ => 0

theorem elapsed_eq_zero {i : Instr} (h : ∀ delta, i ≠ .advance delta) : elapsed i = 0 := by
  cases i with
  | advance delta => exact absurd rfl (h delta)
  | _ => rfl

/-- ADVANCE adds its delta to the clock, and every other operation takes no time. -/
theorem exec_now {i : Instr} {s t : State} (h : exec i s = .next t) : t.now = s.now + elapsed i := by
  obtain ⟨_, rfl, -, -, hadvance, -⟩ | ⟨_, _, rfl, -, rfl⟩ | ⟨_, _, _, rfl, -, hw, rfl⟩ | ⟨rfl, -, -, rfl⟩ |
    ⟨_, rfl, -, rfl⟩ | ⟨d, rfl, -, rfl⟩ | ⟨d, rfl, -, -, rfl⟩ | ⟨d, rfl, -, -, rfl⟩ | ⟨_, rfl, -, rfl⟩ :=
    exec_cases h
  · -- an access without effect
    rw [elapsed_eq_zero hadvance]
    rfl
  · -- WR_DATA
    rfl
  · have hstate := writeControl_state hw
    exact (congrArg State.now hstate :)
  · -- INIT
    rfl
  · -- INIT, refused
    rfl
  · exact endJob_now d s
  · have hstate := pulseCallback_state d s
    exact (congrArg State.now hstate :)
  · exact endJob_now d s
  · -- ADVANCE
    rfl

/-! ## The obligations -/

/-- Settles O24: the fields are those of `exec_fireTimeout_eq`. -/
theorem timeoutFireDevice : Obligations.TimeoutFireDevice :=
  fun _ _ hd ht => ⟨_, exec_fireTimeout_eq hd ht, rfl, rfl⟩

/-- Settles O25: the deadlines that bound an ADVANCE are those of the armed timers of a Present device. -/
theorem advanceUpToDeadlines : Obligations.AdvanceUpToDeadlines := by
  refine fun s delta => ⟨fun h => ?_, fun ⟨d, x, hd, harmed, hlt⟩ => ?_⟩
  · have henabled : advanceEnabled s delta = true := advanceEnabled_iff.mpr fun x hx => by
      obtain ⟨d, hd, harmed⟩ := mem_deadlines_iff.mp hx
      exact h d x hd harmed
    exact ⟨none, exec_advance_enabled henabled⟩
  · exact exec_advance_past_deadline (mem_deadlines_iff.mpr ⟨d, hd, harmed⟩) hlt

/-- Settles O26: a due deadline bounds the clock at now; of the host's operations only a CONTROL write can stop, and the
invariant leaves it a free slot. -/
theorem dueTimerBlocksOnlyTime : Obligations.DueTimerBlocksOnlyTime := by
  intro s d hinv hd hdue
  have hroom : d.cursor.val < Config.capacity := (hinv.device d hd).cursor_lt
  refine ⟨fun delta hpos => ?_, fun v => ?_, fun v => ⟨_, exec_wrData_present hd v⟩, ⟨_, exec_rdStatus_present hd⟩,
    ⟨_, exec_rdData s⟩, ⟨_, exec_rdControl s⟩, ⟨_, exec_close_present hd⟩⟩
  · exact exec_advance_past_deadline (mem_deadlines_iff.mpr ⟨d, hd, hdue⟩) (by omega)
  · obtain ⟨r, hr⟩ := writeControl_of_room hroom v s
    exact ⟨_, exec_wrControl_some hd hr⟩

/-- Settles O29: before the fire the byte joins the job and the deadline moves out by a positive delay; the fire empties the
buffer and closes the file, so after it the same strobe buffers the byte alone. -/
theorem strobeAtTimeoutEitherOrder : Obligations.StrobeAtTimeoutEitherOrder := by
  intro s d v hd hwf hdue hv hold hlt
  constructor
  · obtain ⟨t, d', hx, hd', hout, hnow, hbytes, -, htimeout⟩ := exec_wrControl_joins_job hd hwf hv hold hlt
    obtain ⟨-, hdelay, -⟩ := parameterBoundsHold
    have hlater : d'.timeoutDeadline ≠ some t.now := by
      rw [htimeout, hnow, ne_eq, Option.some.injEq]
      omega
    exact ⟨t, d', hx, hd', hout, hbytes, htimeout, exec_fireTimeout_not_due hd' hlater⟩
  · obtain ⟨t, hfire, hdev, hnow⟩ := timeoutFireDevice s d hd hdue
    have hroom : 0 + 1 < Config.capacity := by decide
    obtain ⟨u, d', hx, hd', hout, -, hbytes, hfile, htimeout⟩ := exec_wrControl_joins_job hdev hwf hv hold hroom
    have hempty := bufferedBytes_of_empty { d with cursor := 0, outputFile := none, timeoutDeadline := none } rfl
    rw [hempty, List.nil_append] at hbytes
    exact ⟨t, u, d', hfire, hx, hd', hout, hbytes, hfile, hnow ▸ htimeout⟩

/-- Settles O30: the end of the job reads neither the ACK nor the output trace, so it emits and writes the same in either
order, and the `Irq` stands before or after its events. -/
theorem timerFiresCommute : Obligations.TimerFiresCommute := by
  intro s d hd hpulse htimeout
  obtain ⟨hfs, es, hlast, hfirst⟩ := endJob_same_data (d := d) (e := { d with ackPending := false, pulseDeadline := none })
    (s := s) (u := { s with
      dev := .present { d with ackPending := false, pulseDeadline := none },
      out := if d.ackPending then s.out ++ [.irq] else s.out, ret := none }) rfl rfl rfl rfl
  refine ⟨_, _, _, _, exec_firePulse_eq hd hpulse, exec_fireTimeout_eq rfl htimeout, exec_fireTimeout_eq hd htimeout,
    exec_firePulse_eq rfl hpulse, ?_, ?_⟩
  · simp [hfs]
  · simp only [hlast, hfirst]
    split
    · rw [List.append_assoc, List.append_assoc]
      exact List.perm_append_comm.append_left s.out
    · rfl

/-- Settles O31: this is `exec_now`; taking an event and refusing it take no time either. -/
theorem onlyAdvanceMovesClock : Obligations.OnlyAdvanceMovesClock := by
  refine ⟨fun i s t h => exec_now h, fun s t h => ?_⟩
  obtain ⟨e, rest, -, ⟨i, -, hx⟩ | ⟨_, -, rfl⟩⟩ := step_cases h
  · rw [exec_now hx]
    exact Nat.le_add_right s.now _
  · exact le_rfl

/-- Settles O41: the fields are those of `exec_firePulse_eq` and `exec_fireTimeout_eq`, and the end of a job changes one
file. -/
theorem frameTimerFires : Obligations.FrameTimerFires := by
  rintro i s t d (rfl | rfl) hx hd hfs
  · by_cases hdue : d.pulseDeadline = some s.now
    · rw [exec_firePulse_eq hd hdue] at hx
      cases hx
      exact ⟨rfl, rfl, rfl, rfl, fun _ _ => rfl, fun _ _ => rfl, _, rfl, fun _ => rfl, fun _ => rfl, nofun⟩
    · rw [exec_firePulse_not_due hd hdue] at hx
      cases hx
  · by_cases hdue : d.timeoutDeadline = some s.now
    · rw [exec_fireTimeout_eq hd hdue] at hx
      cases hx
      exact ⟨rfl, rfl, rfl, rfl, fun _ hm => endJob_other_files hfs hm, nofun, _, rfl, fun _ => rfl, nofun, fun _ => rfl⟩
    · rw [exec_fireTimeout_not_due hd hdue] at hx
      cases hx

/-- Settles O42: INIT touches the device or the mark, CLOSE ends the job and drops the device, ADVANCE moves the clock. -/
theorem frameAdvanceInitClose : Obligations.FrameAdvanceInitClose := by
  rintro i s t (rfl | rfl | ⟨delta, rfl⟩) hx hfs
  · cases hd : s.dev with
    | absent =>
      rw [exec_init_absent hd] at hx
      cases hx
      split <;> exact ⟨rfl, rfl, fun h => absurd rfl h, fun _ => rfl, fun _ => ⟨rfl, rfl⟩, nofun,
        fun _ h => absurd rfl h, nofun⟩
    | present d =>
      rw [exec_init_present hd] at hx
      cases hx
      exact ⟨rfl, rfl, fun h => absurd rfl h, fun _ => rfl, fun _ => ⟨rfl, rfl⟩, nofun, fun _ _ => hd, nofun⟩
  · cases hd : s.dev with
    | absent =>
      rw [exec_close_absent hd] at hx
      cases hx
      exact ⟨rfl, rfl, fun _ => rfl, fun _ => rfl, fun h => absurd rfl h, nofun, nofun, fun _ _ _ => rfl⟩
    | present d =>
      rw [exec_close_eq hd] at hx
      cases hx
      exact ⟨rfl, rfl, fun _ => rfl, fun _ => rfl, fun h => absurd rfl h, nofun, nofun,
        fun _ m hm => endJob_other_files hfs (hm d rfl)⟩
  · cases hen : advanceEnabled s delta with
    | true =>
      rw [exec_advance_enabled hen] at hx
      cases hx
      exact ⟨rfl, rfl, fun _ => rfl, nofun, fun _ => ⟨rfl, rfl⟩, fun _ => rfl, nofun, nofun⟩
    | false =>
      rw [exec_advance_stuck hen] at hx
      cases hx

/-- Settles O27: this is `exec_firePulse_eq`. -/
theorem pulseFireEndsAck : Obligations.PulseFireEndsAck :=
  fun _ _ hd hp => ⟨none, exec_firePulse_eq hd hp⟩

/-- Settles O28: an Absent device has no timer, and on a Present one the fire checks its deadline. -/
theorem fireStuckUnlessDue : Obligations.FireStuckUnlessDue := by
  intro s
  cases hd : s.dev with
  | absent => exact ⟨fun _ => exec_firePulse_absent hd, fun _ => exec_fireTimeout_absent hd⟩
  | present d =>
    exact ⟨fun h => exec_firePulse_not_due hd (h d rfl), fun h => exec_fireTimeout_not_due hd (h d rfl)⟩

end Sys2Proof.Machine
/-! SUPPORT. The obligations of the start of a run, of INIT and CLOSE, and of an Absent device (42_lifecycle.md). -/

namespace Sys2Proof.Machine

/-- Settles O5: CLOSE ends the job, which takes no time, emits no `Irq` and leaves no file open, and drops the device. -/
theorem closeReleasesDevice : Obligations.CloseReleasesDevice :=
  fun s d hd => ⟨_, exec_close_eq hd, rfl, rfl, rfl, endJob_irqs d s, endJob_log⟩

/-- Settles O21: the flush opens the file of this moment, writes to it and leaves it open for the close. -/
theorem jobEndOpensFileLazily : Obligations.JobEndOpensFileLazily := by
  intro i s d hd hend hfs hne hf ho
  obtain ⟨t, hx, hout, hfs', -⟩ := exec_endsJob hd hend
  have hname : sinkName d s = fileName s.draws.stamp := by simp [sinkName, hf]
  have hfiles := flush_content hfs hne (.inr ho)
  rw [hname, ← hfs'] at hfiles
  rw [flush_of_openOk hne hf ho] at hout
  refine ⟨t, hx, ?_, ?_, ?_⟩
  · simpa [writeSink, openSink] using hout
  · simp [hfiles]
  · simp +contextual [hfiles]

/-- Settles O1: the fields of the start state. -/
theorem runStartsAbsent : Obligations.RunStartsAbsent :=
  fun fs trace => ⟨State.start_dev fs trace, State.start_now fs trace, State.start_out fs trace,
    State.start_refused fs trace, State.start_fs fs trace⟩

/-- Settles O3: INIT creates `initialDevice`, whose storage is empty and so reads 0 everywhere, or changes nothing. -/
theorem initCreatesZeroedDevice : Obligations.InitCreatesZeroedDevice := by
  refine fun s hd => ⟨fun halloc => ?_, fun hfail => ?_⟩
  · have hx := exec_init_absent hd
    rw [if_pos halloc] at hx
    exact ⟨_, initialDevice, hx, rfl, rfl, rfl, rfl, rfl, rfl, rfl, rfl, rfl, fun _ _ => rfl, rfl, rfl, rfl, rfl, rfl, rfl,
      rfl, rfl⟩
  · have hx := exec_init_absent hd
    rw [if_neg (Bool.eq_false_iff.mp hfail)] at hx
    exact ⟨_, hx, hd, rfl, rfl, rfl, rfl⟩

/-- Settles O4: each access answers the state it met, with no value for a write and for CLOSE, and the draw for a read. -/
theorem absentDeviceIgnoresHost : Obligations.AbsentDeviceIgnoresHost :=
  fun s hd => ⟨exec_wrData_absent hd, exec_wrControl_absent hd, ⟨none, exec_close_absent hd⟩, exec_rdData s,
    exec_rdStatus_absent hd, exec_rdControl s⟩

end Sys2Proof.Machine
/-! SUPPORT. What each operation adds to the output trace, the one source of `Irq`, the deadlines of the timers, and the
errors (60_exceptions.md). -/

namespace Sys2Proof.Machine

/-! ## The events of the shared operations (R153) -/

section
variable {v : Byte} {d : DeviceState} {s : State} {r : DeviceState × State}

/-- The events of a flush: none; a write to a file that stays open, opened before it or not; or the diagnostic (R52). -/
theorem flush_output (d : DeviceState) (s : State) : ∃ es, (flush d s).2.out = s.out ++ es ∧
    (es = [] ∨
      (∃ n b, (flush d s).1.outputFile = some n ∧ (es = [.sinkWrite b] ∨ es = [.sinkOpen n, .sinkWrite b])) ∨
      ((flush d s).1.outputFile = none ∧ es = [.diag .openFailed])) := by
  obtain ⟨-, h⟩ | ⟨n, -, hf, h⟩ | ⟨-, -, -, h⟩ | ⟨-, hf, -, h⟩ := flush_cases d s <;> rw [h]
  · exact ⟨[], by simp, .inl rfl⟩
  · exact ⟨[.sinkWrite (bufferedBytes d)], rfl, .inr (.inl ⟨n, _, hf, .inl rfl⟩)⟩
  · exact ⟨[.sinkOpen (fileName s.draws.stamp), .sinkWrite (bufferedBytes d)], by simp [writeSink, openSink],
      .inr (.inl ⟨_, _, rfl, .inr rfl⟩)⟩
  · exact ⟨[.diag .openFailed], rfl, .inr (.inr ⟨hf, rfl⟩)⟩

/-- The end of a job closes what its flush leaves open, and nothing after a failed open. -/
theorem endJob_output (d : DeviceState) (s : State) : ∃ es, (endJob d s).2.out = s.out ++ es ∧
    (es = [] ∨ (∃ n, es = [.sinkClose n]) ∨ (∃ n b, es = [.sinkWrite b, .sinkClose n]) ∨
      (∃ n b, es = [.sinkOpen n, .sinkWrite b, .sinkClose n]) ∨ es = [.diag .openFailed]) := by
  obtain ⟨es, hout, hes⟩ := flush_output d s
  refine ⟨es ++ ((flush d s).1.outputFile.map OutEvent.sinkClose).toList, by rw [endJob_out, hout, List.append_assoc], ?_⟩
  obtain rfl | ⟨n, b, hf, rfl | rfl⟩ | ⟨hf, rfl⟩ := hes
  · cases (flush d s).1.outputFile with
    | none => exact .inl rfl
    | some n => exact .inr (.inl ⟨n, rfl⟩)
  · rw [hf]; exact .inr (.inr (.inl ⟨n, b, rfl⟩))
  · rw [hf]; exact .inr (.inr (.inr (.inl ⟨n, b, rfl⟩)))
  · rw [hf]; exact .inr (.inr (.inr (.inr rfl)))

/-- A CONTROL write emits what the flush of a full buffer emits, or nothing; it closes no file. -/
theorem writeControl_output (hr : writeControl v d s = some r) : ∃ es, r.2.out = s.out ++ es ∧
    (es = [] ∨ (∃ b, es = [.sinkWrite b]) ∨ (∃ n b, es = [.sinkOpen n, .sinkWrite b]) ∨ es = [.diag .openFailed]) := by
  obtain ⟨hs, rfl⟩ | ⟨hs, -⟩ := writeControl_some d s hr
  · exact ⟨[], by simp, .inl rfl⟩
  · obtain ⟨full, -, rfl⟩ := writeControl_strobe_eq hs hr
    obtain ⟨-, h⟩ | ⟨-, h⟩ := storeByte_cases full s <;> simp only [h]
    · obtain ⟨es, hout, hes⟩ := flush_output full s
      refine ⟨es, hout, ?_⟩
      obtain rfl | ⟨n, b, -, rfl | rfl⟩ | ⟨-, rfl⟩ := hes
      · exact .inl rfl
      · exact .inr (.inl ⟨b, rfl⟩)
      · exact .inr (.inr (.inl ⟨n, b, rfl⟩))
      · exact .inr (.inr (.inr rfl))
    · exact ⟨[], by simp, .inl rfl⟩

/-- A CONTROL write emits no interrupt (R148). -/
theorem writeControl_irqs (hr : writeControl v d s = some r) : irqCount r.2.out = irqCount s.out :=
  congrArg HostView.irqs (hostView_writeControl hr)

end

/-- No operation but the pulse fire emits an interrupt. -/
theorem exec_irqs_of_ne_firePulse {i : Instr} {s t : State} (hi : i ≠ .firePulse) (h : exec i s = .next t) :
    irqCount t.out = irqCount s.out := by
  obtain ⟨_, rfl, -⟩ | ⟨_, _, -, -, rfl⟩ | ⟨_, _, _, -, -, hw, rfl⟩ | ⟨-, -, -, rfl⟩ | ⟨_, -, -, rfl⟩ | ⟨d, -, -, rfl⟩ |
    ⟨_, rfl, -⟩ | ⟨d, -, -, -, rfl⟩ | ⟨_, -, -, rfl⟩ := exec_cases h
  · rfl
  · -- WR_DATA
    rfl
  · exact writeControl_irqs hw
  · -- INIT
    rfl
  · -- INIT, refused
    rfl
  · exact endJob_irqs d s
  · exact absurd rfl hi
  · exact endJob_irqs d s
  · -- ADVANCE
    rfl

/-! ## The deadlines after a CONTROL write (R157) -/

/-- A deadline after a CONTROL write: armed anew at a STROBE edge, else gone at a RESET edge, else as it was. -/
def deadlineByWrite (v : Byte) (d : DeviceState) (armed : Nat) (old : Option Nat) : Option Nat :=
  if strobeEdge d.control v then some armed else if resetEdge d.control v then none else old

section
variable {v : Byte} {d : DeviceState} {s : State} {r : DeviceState × State} {armed x : Nat} {old : Option Nat}

theorem deadlineByWrite_eq_some (h : deadlineByWrite v d armed old = some x) :
    old = some x ∨ (strobeEdge d.control v = true ∧ x = armed) := by
  unfold deadlineByWrite at h
  split at h
  · rename_i hs
    exact .inr ⟨hs, (Option.some.inj h).symm⟩
  · split at h
    · cases h
    · exact .inl h

theorem deadlineByWrite_eq_none (h : deadlineByWrite v d armed old = none) (hold : old ≠ none) :
    resetEdge d.control v = true := by
  unfold deadlineByWrite at h
  split at h
  · cases h
  · split at h
    · assumption
    · exact absurd h hold

/-- A CONTROL write treats both deadlines alike (R101, R102). -/
theorem writeControl_deadlines (hr : writeControl v d s = some r) :
    r.1.pulseDeadline = deadlineByWrite v d (s.now + Config.pulseDelay) d.pulseDeadline ∧
    r.1.timeoutDeadline = deadlineByWrite v d (s.now + Config.timeoutDelay) d.timeoutDeadline := by
  unfold deadlineByWrite
  cases hs : strobeEdge d.control v with
  | true =>
    obtain ⟨full, -, rfl⟩ := writeControl_strobe_eq hs hr
    exact ⟨rfl, rfl⟩
  | false =>
    rw [writeControl_no_strobe d s hs] at hr
    cases hr
    cases he : resetEdge d.control v with
    | true => rw [controlLevels_reset d he]; exact ⟨rfl, rfl⟩
    | false => rw [controlLevels_no_reset d he]; exact ⟨rfl, rfl⟩

end

/-! ## An Absent device (R38) -/

section
variable {s t : State} {d' : DeviceState} {i : Instr}

/-- On an Absent device an operation creates it, moves the clock, or only answers (R38, R114, R127, R135 to R137). -/
theorem exec_absent_cases (hd : s.dev = .absent) (h : exec i s = .next t) :
    (∃ x, t = s.answer x) ∨ (i = .init ∧ t = (s.setDevice (.present initialDevice)).answer none) ∨
      (∃ delta, i = .advance delta ∧ t = (s.addTime delta).answer none) := by
  obtain ⟨x, rfl, -⟩ | ⟨_, _, -, hp, -⟩ | ⟨_, _, _, -, hp, -⟩ | ⟨rfl, -, -, rfl⟩ | ⟨_, -, hp, -⟩ | ⟨_, -, hp, -⟩ |
    ⟨_, -, hp, -⟩ | ⟨_, -, hp, -⟩ | ⟨delta, rfl, -, rfl⟩ := exec_cases h
  · exact .inl ⟨x, rfl⟩
  · cases hd.symm.trans hp
  · cases hd.symm.trans hp
  · exact .inr (.inl ⟨rfl, rfl⟩)
  · cases hd.symm.trans hp
  · cases hd.symm.trans hp
  · cases hd.symm.trans hp
  · cases hd.symm.trans hp
  · exact .inr (.inr ⟨delta, rfl, rfl⟩)

/-- Only INIT makes an Absent device Present, with both timers disarmed (R36, R128). -/
theorem exec_creates_initialDevice (h : exec i s = .next t) (hd : s.dev = .absent) (hd' : t.dev = .present d') :
    d' = initialDevice := by
  obtain ⟨_, rfl⟩ | ⟨-, rfl⟩ | ⟨_, -, rfl⟩ := exec_absent_cases hd h
  · cases hd.symm.trans hd'
  · cases hd'
    rfl
  · cases hd.symm.trans hd'

end

/-! ## The errors (R140 to R143) -/

section
variable {v : Byte} {d : DeviceState} {s t : State} {r : DeviceState × State} {i : Instr} {n : Nat}

theorem openFails_iff : openFails n d s = true ↔ n ≠ 0 ∧ d.outputFile = none ∧ s.draws.openOk = false := by
  simp [openFails, and_assoc]

theorem errorOf_allocFailed_iff :
    errorOf i s = some .allocFailed ↔ i = .init ∧ s.dev = .absent ∧ s.draws.allocOk = false := by
  cases hd : s.dev <;> cases i <;> simp [errorOf, hd]

/-- An open can fail where a STROBE edge fills the buffer, and where a job ends (R142). -/
theorem errorOf_openFailed_iff : errorOf i s = some .openFailed ↔ ∃ d, s.dev = .present d ∧
    ((∃ v, i = .wrControl v ∧ strobeEdge d.control v = true ∧ d.cursor.val + 1 = Config.capacity ∧
        openFails Config.capacity d s = true) ∨
      ((i = .close ∨ i = .fireTimeout) ∧ openFails d.cursor.val d s = true)) := by
  cases hd : s.dev <;> cases i <;> simp [errorOf, hd, and_assoc]

theorem errorOf_wrControl_openFailed (hd : s.dev = .present d) : errorOf (.wrControl v) s = some .openFailed ↔
    strobeEdge d.control v = true ∧ d.cursor.val + 1 = Config.capacity ∧ openFails Config.capacity d s = true := by
  simp [errorOf_openFailed_iff, hd]

theorem errorOf_jobEnd_openFailed (hd : s.dev = .present d) (hi : i = .close ∨ i = .fireTimeout) :
    errorOf i s = some .openFailed ↔ openFails d.cursor.val d s = true := by
  obtain rfl | rfl := hi <;> simp [errorOf_openFailed_iff, hd]

/-- A null handle needs an Absent device, and neither INIT nor ADVANCE meets it (R143). -/
theorem errorOf_nullHandle (h : errorOf i s = some .nullHandle) :
    s.dev = .absent ∧ i ≠ .init ∧ ∀ delta, i ≠ .advance delta := by
  cases hd : s.dev with
  | absent => cases i <;> simp [errorOf, hd] at h ⊢
  | present d => cases i <;> simp [errorOf, hd] at h

/-- A flush reports a failed open exactly where it meets one. -/
theorem flush_failedOpens (d : DeviceState) (s : State) : failedOpens (flush d s).2.out =
    failedOpens s.out + if openFails d.cursor.val d s = true then 1 else 0 := by
  simp only [openFails_iff]
  obtain ⟨hc, h⟩ | ⟨n, -, hf, h⟩ | ⟨-, -, ho, h⟩ | ⟨hc, hf, ho, h⟩ := flush_cases d s <;> rw [h]
  · simp [hc]
  · simp [hf, writeSink]
  · simp [ho, writeSink, openSink]
  · simp [hc, hf, ho, dropBuffered]

theorem endJob_failedOpens (d : DeviceState) (s : State) : failedOpens (endJob d s).2.out =
    failedOpens s.out + if openFails d.cursor.val d s = true then 1 else 0 := by
  rw [endJob_out, failedOpens_append, flush_failedOpens]
  cases (flush d s).1.outputFile <;> simp

/-- A CONTROL write reports a failed open exactly where the flush of the buffer it filled meets one. -/
theorem writeControl_failedOpens (hr : writeControl v d s = some r) : failedOpens r.2.out = failedOpens s.out +
    if strobeEdge d.control v = true ∧ d.cursor.val + 1 = Config.capacity ∧ openFails Config.capacity d s = true
    then 1 else 0 := by
  cases hs : strobeEdge d.control v with
  | false =>
    rw [writeControl_no_strobe d s hs] at hr
    cases hr
    simp
  | true =>
    obtain ⟨full, hfull, rfl⟩ := writeControl_strobe_eq hs hr
    obtain ⟨-, hcursor, -, hframe⟩ := bufAppend_some hfull
    obtain ⟨hcap, h⟩ | ⟨hroom, h⟩ := storeByte_cases full s <;> simp only [h]
    · have hfails : openFails Config.capacity full s = openFails Config.capacity d s := by rw [hframe]; rfl
      rw [flush_failedOpens, hcap, hfails]
      simp [← hcursor, hcap]
    · simp [← hcursor, hroom]

theorem failedOpens_of_no_error (hnone : errorOf i s ≠ some .openFailed) (hout : t.out = s.out) :
    failedOpens t.out = failedOpens s.out + if errorOf i s = some .openFailed then 1 else 0 := by
  rw [hout, if_neg hnone, Nat.add_zero]

/-- Every operation reports a failed open exactly where it meets one (R142). -/
theorem exec_failedOpens (h : exec i s = .next t) :
    failedOpens t.out = failedOpens s.out + if errorOf i s = some .openFailed then 1 else 0 := by
  obtain ⟨_, rfl, -, -, -, hidle⟩ | ⟨_, _, rfl, -, rfl⟩ | ⟨v, d, r, rfl, hd, hw, rfl⟩ | ⟨rfl, -, -, rfl⟩ |
    ⟨_, rfl, -, rfl⟩ | ⟨d, rfl, hd, rfl⟩ | ⟨d, rfl, hd, -, rfl⟩ | ⟨d, rfl, hd, -, rfl⟩ | ⟨_, rfl, -, rfl⟩ := exec_cases h
  · -- an Absent device, or a read
    have hnone : errorOf i s ≠ some .openFailed := by
      obtain habs | rfl | rfl | rfl := hidle
      · simp [errorOf_openFailed_iff, habs]
      all_goals simp [errorOf_openFailed_iff]
    exact failedOpens_of_no_error hnone rfl
  · -- WR_DATA
    exact failedOpens_of_no_error (by simp [errorOf_openFailed_iff]) rfl
  · simp only [errorOf_wrControl_openFailed hd]
    exact writeControl_failedOpens hw
  · -- INIT
    exact failedOpens_of_no_error (by simp [errorOf_openFailed_iff]) rfl
  · -- INIT, refused
    exact failedOpens_of_no_error (by simp [errorOf_openFailed_iff]) rfl
  · simp only [errorOf_jobEnd_openFailed hd (.inl rfl)]
    exact endJob_failedOpens d s
  · rw [if_neg (by simp [errorOf_openFailed_iff])]
    obtain ⟨-, hfired⟩ | ⟨-, hfired⟩ := pulseCallback_cases d s <;> rw [hfired] <;> simp
  · simp only [errorOf_jobEnd_openFailed hd (.inr rfl)]
    exact endJob_failedOpens d s
  · -- ADVANCE
    exact failedOpens_of_no_error (by simp [errorOf_openFailed_iff]) rfl

theorem strobeEdge_bits {old v : Byte} (h : strobeEdge old v = true) : bit v 0 = false ∧ bit old 0 = true := by
  simpa [strobeEdge] using h

/-- An operation that ends the job and gives a next state found a Present device's timer due, where it is the fire. -/
theorem endsJob_of_exec (hd : s.dev = .present d) (hi : i = .close ∨ i = .fireTimeout) (h : exec i s = .next t) :
    endsJob i d s := by
  obtain rfl | rfl := hi
  · exact .inl rfl
  · by_cases hdue : d.timeoutDeadline = some s.now
    · exact .inr ⟨rfl, hdue⟩
    · rw [exec_fireTimeout_not_due hd hdue] at h
      cases h

/-- A failed open changes no file and leaves nothing buffered (R142). -/
theorem exec_openFailed_drops (herr : errorOf i s = some .openFailed) (h : exec i s = .next t) :
    t.fs = s.fs ∧ t.dev.buffered = [] := by
  obtain ⟨d, hd, ⟨v, rfl, hs, hcap, hfails⟩ | ⟨hi, hfails⟩⟩ := errorOf_openFailed_iff.mp herr
  · obtain ⟨-, hf, ho⟩ := openFails_iff.mp hfails
    obtain ⟨hv, hold⟩ := strobeEdge_bits hs
    obtain ⟨u, d', hx, hd', -, hfs, hcursor, -⟩ := bufferFullFailedOpen s d v hd hv hold hcap hf ho
    cases h.symm.trans hx
    exact ⟨hfs, by rw [hd', buffered_present, bufferedBytes_of_empty d' hcursor]⟩
  · obtain ⟨hne, hf, ho⟩ := openFails_iff.mp hfails
    obtain ⟨u, hx, -, hfs, hempty⟩ := jobEndFailedOpenDropsBytes i s d hd (endsJob_of_exec hd hi h) hne hf ho
    cases h.symm.trans hx
    exact ⟨hfs, hempty⟩

end

/-! ## The obligations -/

/-- Settles O32: no other operation emits an `Irq`, and the fire emits the one of `exec_firePulse_eq`. -/
theorem onlyPulseFireEmitsIrq : Obligations.OnlyPulseFireEmitsIrq := by
  intro i s t h
  by_cases hi : i = .firePulse
  · subst hi
    cases hd : s.dev with
    | absent =>
      rw [exec_firePulse_absent hd] at h
      cases h
    | present d =>
      by_cases hdue : d.pulseDeadline = some s.now
      · rw [exec_firePulse_eq hd hdue] at h
        cases h
        cases hack : d.ackPending <;> simp [hack]
      · rw [exec_firePulse_not_due hd hdue] at h
        cases h
  · rw [exec_irqs_of_ne_firePulse hi h]
    split
    · exact absurd rfl hi
    · rfl

/-- Settles O33: a CONTROL write emits what `writeControl_output` lists, the end of a job what `endJob_output` lists, the pulse
fire at most its `Irq`, and every other operation nothing. -/
theorem outputOrderOfOneStep : Obligations.OutputOrderOfOneStep := by
  intro i s t h
  obtain ⟨_, rfl, -⟩ | ⟨_, _, rfl, -, rfl⟩ | ⟨_, _, _, rfl, -, hw, rfl⟩ | ⟨rfl, -, -, rfl⟩ | ⟨_, rfl, -, rfl⟩ |
    ⟨d, rfl, -, rfl⟩ | ⟨d, rfl, -, -, rfl⟩ | ⟨d, rfl, -, -, rfl⟩ | ⟨_, rfl, -, rfl⟩ := exec_cases h
  · -- an access without effect
    exact ⟨[], by simp, by cases i <;> simp⟩
  · -- WR_DATA
    exact ⟨[], by simp, rfl⟩
  · exact writeControl_output hw
  · -- INIT
    exact ⟨[], by simp, rfl⟩
  · -- INIT, refused
    exact ⟨[], by simp, rfl⟩
  · exact endJob_output d s
  · obtain ⟨-, hfired⟩ | ⟨-, hfired⟩ := pulseCallback_cases d s <;> rw [hfired]
    · exact ⟨[.irq], rfl, .inr rfl⟩
    · exact ⟨[], by simp, .inl rfl⟩
  · exact endJob_output d s
  · -- ADVANCE
    exact ⟨[], by simp, rfl⟩

/-- Settles O34: INIT arms no timer, a CONTROL write leaves `deadlineByWrite`, and each fire clears its own deadline. -/
theorem timersArmedAndDisarmedOnlyBy : Obligations.TimersArmedAndDisarmedOnlyBy := by
  intro i s t d' h hd'
  cases hd : s.dev with
  | absent =>
    obtain rfl := exec_creates_initialDevice h hd hd'
    exact ⟨nofun, nofun, nofun, nofun⟩
  | present d =>
    obtain ⟨_, rfl⟩ | ⟨v, r, rfl, hw, rfl⟩ | ⟨rfl, rfl⟩ | ⟨rfl, rfl⟩ := exec_present_cases h hd hd'
    · simp +contextual
    · obtain ⟨hpulse, htimeout⟩ := writeControl_deadlines hw
      rw [hpulse, htimeout]
      refine ⟨fun x hx => ?_, fun x hx => ?_, fun _ hp hold hgone => ?_, fun _ hp hold hgone => ?_⟩
      · exact (deadlineByWrite_eq_some hx).imp (⟨d, rfl, ·⟩) fun ⟨hs, hnow⟩ => ⟨v, d, rfl, rfl, hs, hnow⟩
      · exact (deadlineByWrite_eq_some hx).imp (⟨d, rfl, ·⟩) fun ⟨hs, hnow⟩ => ⟨v, d, rfl, rfl, hs, hnow⟩
      · cases hp
        exact .inr ⟨v, rfl, deadlineByWrite_eq_none hgone hold⟩
      · cases hp
        exact .inr ⟨v, rfl, deadlineByWrite_eq_none hgone hold⟩
    · rw [pulseCallback_device]
      simp +contextual
    · rw [timeoutCallback_device]
      simp +contextual

/-- Settles O38: the errors as `errorOf` names them, each with what the operation does there, and the count of
`exec_failedOpens`. -/
theorem errorEffects : Obligations.ErrorEffects := by
  refine fun i s t h => ⟨fun herr => ?_, (exec_openFailed_drops · h), fun herr => ?_, exec_failedOpens h⟩
  · obtain ⟨rfl, hd, hfail⟩ := errorOf_allocFailed_iff.mp herr
    rw [exec_init_absent hd, if_neg (Bool.eq_false_iff.mp hfail)] at h
    cases h
    exact ⟨hd, rfl⟩
  · obtain ⟨hd, hinit, hadvance⟩ := errorOf_nullHandle herr
    obtain ⟨_, rfl⟩ | ⟨rfl, -⟩ | ⟨delta, rfl, -⟩ := exec_absent_cases hd h
    · rfl
    · exact absurd rfl hinit
    · exact absurd rfl (hadvance delta)

end Sys2Proof.Machine

/-! The RESET edge (70_reset_and_hazards.md). -/

namespace Sys2Proof.Machine

/-- Settles O13: this is `exec_wrControl_reset`. -/
theorem resetEdgeCancelsHandshake : Obligations.ResetEdgeCancelsHandshake :=
  fun _ _ _ hd hv hold hstrobe => exec_wrControl_reset hd (strobeEdge_false hstrobe) (resetEdge_true hv hold)

end Sys2Proof.Machine
